-- ==== Sys2Proof/Word.lean ====
section
/-! DEFINITION. Word.lean: the bit vectors of the block, each at the width the register table of
spec/10_state.md (R20) or the event format of spec/30_encoding.md (R80, R82) gives it. -/

namespace Sys2Proof

/-- One byte of the telemetry image, the transmit image or the command store (R20, R61). -/
abbrev Byte := BitVec 8

/-- A 16-bit millivolt value: `BAT_LAST_MV`, `VOUT_MV`, `BAT_AVG_MV` and each ring entry (R20). -/
abbrev Millivolts := BitVec 16

/-- One event word (R80). -/
abbrev EventWord := BitVec 16

/-- Four pin levels, bit `b` for button `b`; 0 is pressed (R15, R30, R82). -/
abbrev Buttons := BitVec 4

/-- A raw code of the converter as the event word carries it, `w[9:0]` (R82). -/
abbrev AdcCode := BitVec 10

end Sys2Proof
end

