-- ==== Sys2Proof/Config.lean ====
section
/-! DEFINITION. Config.lean: the parameters of spec/00_scope.md R7 and R8, the check of R8 on them,
the parameter set the machine runs with, the free draw `any8` of R14, and the free value of a division
by 0 (R13). -/

namespace Sys2Proof.Config

/-- The parameters of the model (R7, R8). Every meaning takes one of these as an argument. Counts and
millivolt values are natural numbers, since every rule computes exactly on them (R13). -/
structure Params where
  /-- `L`: frame length in bytes. -/
  l : Nat
  /-- `M`: capacity of the calibration ring. -/
  m : Nat
  /-- `SETTLE_N`: conversions before a result is trusted. -/
  settleN : Nat
  /-- `ADC_BITS`: converter resolution. -/
  adcBits : Nat
  /-- `ADC_FS`: full-scale code. -/
  adcFs : Nat
  /-- `SENTINEL`: raw code rejected on the reference channel. -/
  sentinel : Nat
  /-- `V_CEIL_MV`: sanity ceiling of both channels. -/
  vCeilMv : Nat
  /-- `NB`: number of buttons. The rules write the lanes as `0..3` and never read this number. -/
  nb : Nat
  /-- `CNT_MAX`: saturation value of a press counter. -/
  cntMax : Nat
  /-- `LOW_LIMIT`: consecutive low polls that enter LOW_POWER. -/
  lowLimit : Nat
  /-- `POLL_PERIOD` in milliseconds: timing only, read by no rule (R125, R312). -/
  pollPeriodMs : Nat
  /-- `VREF_MV`: calibrated internal reference (OPEN, D22). -/
  vrefMv : Nat
  /-- `V_OFF_MV`: power-off threshold (OPEN, D28). -/
  vOffMv : Nat
  /-- `V_ON_MV`: wake threshold (OPEN, D29). -/
  vOnMv : Nat
  /-- `V_OPER_MV`: operating threshold of the diode-drop regime (OPEN, D24). -/
  vOperMv : Nat
  /-- `DROP_LO_MV`: correction below the operating threshold (OPEN, D24). -/
  dropLoMv : Nat
  /-- `DROP_HI_MV`: correction otherwise (OPEN, D24). -/
  dropHiMv : Nat
  /-- `HB_WIDTH`: heartbeat counter width in bits (D7). -/
  hbWidth : Nat
  /-- `HB_THRESHOLD`: heartbeat count at which `HB_DUE` rises (OPEN, D7). -/
  hbThreshold : Nat
  /-- `TICK_PERIOD`: timing only, in no unit the spec names, read by no rule (OPEN, D37, R106). -/
  tickPeriod : Nat
  /-- `REINIT_CLEARS_SEQ`: whether a wake zeroes the sequence id (D30). -/
  reinitClearsSeq : Bool
  /-- `ERR_NONE`: the error byte meaning no error (D8). -/
  errNone : Byte
  deriving DecidableEq, Repr

/-- The constraints of R8 on the frame, the ring and the counters. -/
def Params.sizesOk (p : Params) : Bool :=
  decide (13 ≤ p.l) && decide (p.l ≤ 255) && decide (1 ≤ p.m) && decide (p.m ≤ 255) &&
  decide (1 ≤ p.settleN) && (p.adcFs == 2 ^ p.adcBits - 1) &&
  decide (1 ≤ p.lowLimit) && decide (p.lowLimit ≤ 65535) && decide (p.hbThreshold < 2 ^ p.hbWidth)

/-- The constraints of R8 on the millivolt parameters. -/
def Params.millivoltsOk (p : Params) : Bool :=
  decide (p.vCeilMv ≤ 65535) && decide (p.vrefMv ≤ 65535) && decide (p.vOffMv ≤ 65535) &&
  decide (p.vOnMv ≤ 65535) && decide (p.vOperMv ≤ 65535) && decide (p.dropLoMv ≤ 65535) &&
  decide (p.dropHiMv ≤ 65535) && decide (p.vOffMv ≤ p.vOnMv) &&
  decide (p.vCeilMv + max p.dropLoMv p.dropHiMv ≤ 65535)

/-- The check of R8: a parameter set that fails it is refused (there is no machine for it, I-10). -/
def Params.wf (p : Params) : Bool := p.sizesOk && p.millivoltsOk

/-! The OPEN parameters (R8). Each is an opaque constant with no body, at a type that holds exactly the
values R8 admits or is narrowed to them below, so that every claim holds for every admissible value. -/

/-- `VREF_MV`, OPEN (D22). -/
opaque vrefMv : Millivolts
/-- `V_OFF_MV`, OPEN (D28). -/
opaque vOffMv : Millivolts
/-- The value from which `V_ON_MV` is taken, OPEN (D29). -/
opaque vOnRawMv : Millivolts
/-- `V_OPER_MV`, OPEN (D24). -/
opaque vOperMv : Millivolts
/-- The value from which `DROP_LO_MV` is taken, OPEN (D24). -/
opaque dropLoRawMv : Millivolts
/-- The value from which `DROP_HI_MV` is taken, OPEN (D24). -/
opaque dropHiRawMv : Millivolts
/-- `HB_THRESHOLD`, OPEN (D7), below `2^HB_WIDTH` with `HB_WIDTH = 16`. -/
opaque hbThreshold : BitVec 16
/-- `TICK_PERIOD`, OPEN (D37). -/
opaque tickPeriod : Nat

/-- The parameter set of the machine: the source's defaults (R7), the decided values (R8), and the
OPEN values, `V_ON_MV` raised to at least `V_OFF_MV` and each drop lowered to at most
`65535 - V_CEIL_MV`. Every parameter set that R8 admits with these defaults is of this form. -/
def params : Params where
  l := 20
  m := 40
  settleN := 2
  adcBits := 10
  adcFs := 1023
  sentinel := 1023
  vCeilMv := 4500
  nb := 4
  cntMax := 255
  lowLimit := 400
  pollPeriodMs := 25
  vrefMv := vrefMv.toNat
  vOffMv := vOffMv.toNat
  vOnMv := max vOffMv.toNat vOnRawMv.toNat
  vOperMv := vOperMv.toNat
  dropLoMv := min dropLoRawMv.toNat (65535 - 4500)
  dropHiMv := min dropHiRawMv.toNat (65535 - 4500)
  hbWidth := 16
  hbThreshold := hbThreshold.toNat
  tickPeriod := tickPeriod
  reinitClearsSeq := false
  errNone := 0x01#8

/-- The free draws `any8` (R14): the `n`-th draw of a run is `any8 n`. No body: no claim can fix a
draw. -/
opaque any8 : Nat → Byte

/-- The value of `a div 0`, as a function of `a`. R13 defines `div` only for a positive divisor, while
R8 admits `ADC_BITS = 0` and so `ADC_FS = 0`, by which R150 divides. DESIGN CHOICE (log 20): a free value
with no body, so no claim can fix it. -/
opaque divByZero : Nat → Nat

end Sys2Proof.Config
end

