-- ==== Sys2Proof/Syntax.lean ====
section
/-! DEFINITION. Syntax.lean: the events of the block (spec/30_encoding.md R83), one constructor per
row of spec/opcode_table.json, and the event scripts of R90 and R91. -/

namespace Sys2Proof

/-- The nine events (R83). An operand has the width its field has in the event word (R81, R82). -/
inductive Instr where
  /-- TICK (R100). -/
  | tick
  /-- HB_ACK (R104). -/
  | hbAck
  /-- BTN_POLL (R120): the four pin levels, 0 pressed. -/
  | btnPoll (raw : Buttons)
  /-- ADC_START (R140). -/
  | adcStart
  /-- ADC_DONE (R142): the raw code. -/
  | adcDone (r : AdcCode)
  /-- SEL_ASSERT (R190). -/
  | selAssert
  /-- SEL_DEASSERT (R193). -/
  | selDeassert
  /-- SPI_BYTE (R195): receive overrun, write collision, the master's byte. -/
  | spiByte (ovf wcol : Bool) (rx : Byte)
  /-- PWR_POLL (R240). -/
  | pwrPoll
  deriving DecidableEq, Repr

/-- The serial events, the only ones an open frame does not hold (R192, R300). -/
def Instr.isSerial : Instr → Bool
  | .selAssert => true
  | .selDeassert => true
  | .spiByte _ _ _ => true
  | .tick => false
  | .hbAck => false
  | .btnPoll _ => false
  | .adcStart => false
  | .adcDone _ => false
  | .pwrPoll => false

/-- One line of an event script (R90) or one pseudo-instruction without a body (R91). Operands are the
numbers as written; an operand out of its range is an assembly error (R90). -/
inductive ScriptLine where
  | tick
  | hback
  | poll (raw : Nat)
  | astart
  | adone (r : Nat)
  | sela
  | seld
  | byte (v : Nat) (ovf wcol : Bool)
  | ppoll
  /-- `FRAME s, c1, ..., ck` (R91). -/
  | frame (s : Nat) (cs : List Nat)
  /-- `ACQ r1, ..., rn` (R91). -/
  | acq (rs : List Nat)
  /-- `PRESS b` (R91). -/
  | press (b : Nat)
  /-- `TICKS n` (R91). -/
  | ticks (n : Nat)
  deriving DecidableEq, Repr

/-- An event script: lines in order, and `REPEAT n` of an enclosed script (R90, R91). -/
inductive Script where
  | done
  | line (x : ScriptLine) (rest : Script)
  | rep (n : Nat) (body rest : Script)
  deriving DecidableEq, Repr

end Sys2Proof
end

