-- ==== Sys2Proof/WellFormed.lean ====
section
/-! DEFINITION. WellFormed.lean: the operand ranges that the types of Syntax.lean do not already give:
the code range of ADC_DONE (spec/42_adc.md R142) and the ranges of script operands
(spec/30_encoding.md R90, R91). The check of R8 on the parameters is `Config.Params.wf`. -/

namespace Sys2Proof

/-- An event is well-formed for a parameter set when its operand lies in the range its rule gives.
Only ADC_DONE has a range that its field does not already enforce: `r` in `0..ADC_FS` (R142, R157). -/
def Instr.wf (p : Config.Params) : Instr → Bool
  | .adcDone r => decide (r.toNat ≤ p.adcFs)
  | .tick => true
  | .hbAck => true
  | .btnPoll _ => true
  | .adcStart => true
  | .selAssert => true
  | .selDeassert => true
  | .spiByte _ _ _ => true
  | .pwrPoll => true

/-- The operand ranges of script lines (R90, R91): a pin mask in `0..15`, a code in `0..1023`, a byte
in `0..255`, a button in `0..3`. -/
def ScriptLine.wf : ScriptLine → Bool
  | .poll raw => decide (raw ≤ 15)
  | .adone r => decide (r ≤ 1023)
  | .byte v _ _ => decide (v ≤ 255)
  | .frame s cs => decide (s ≤ 255) && cs.all fun c => decide (c ≤ 255)
  | .acq rs => rs.all fun r => decide (r ≤ 1023)
  | .press b => decide (b ≤ 3)
  | .tick => true
  | .hback => true
  | .astart => true
  | .sela => true
  | .seld => true
  | .ppoll => true
  | .ticks _ => true

/-- A script is well-formed when each of its lines is (R90). -/
def Script.wf : Script → Bool
  | .done => true
  | .line x rest => x.wf && rest.wf
  | .rep _ body rest => body.wf && rest.wf

end Sys2Proof
end

