-- ==== Sys2Proof/Decode.lean ====
section
/-! DEFINITION. Decode.lean: the event word of spec/30_encoding.md: its fields (R80 to R82), the
decoder (R86), the encoder (R83, R90), the opcode table as rows (R83), and the assembler of event
scripts (R90, R91). -/

namespace Sys2Proof

/-- Why a word is not an event (R86, R88). -/
inductive DecodeRefusal where
  /-- Opcode 0x0 or 0xA to 0xF. -/
  | reservedOpcode
  /-- A defined opcode with a non-zero reserved bit. -/
  | reservedBits
  deriving DecidableEq, Repr

/-- `OP = w[15:12]` (R80). -/
def opcodeOf (w : EventWord) : BitVec 4 := w.extractLsb' 12 4

/-- An event, unless a reserved bit of its format is set (R86). -/
def unlessReserved {n : Nat} (reserved : BitVec n) (i : Instr) : Except DecodeRefusal Instr :=
  if reserved = 0 then .ok i else .error .reservedBits

/-- The decoder (R86), total on all `2^16` words and a function of the word alone (R87). -/
def decode (w : EventWord) : Except DecodeRefusal Instr :=
  match (opcodeOf w).toNat with
  | 0x1 => unlessReserved (w.extractLsb' 0 12) .tick
  | 0x2 => unlessReserved (w.extractLsb' 0 12) .hbAck
  | 0x3 => unlessReserved (w.extractLsb' 4 8) (.btnPoll (w.extractLsb' 0 4))
  | 0x4 => unlessReserved (w.extractLsb' 0 12) .adcStart
  | 0x5 => unlessReserved (w.extractLsb' 10 2) (.adcDone (w.extractLsb' 0 10))
  | 0x6 => unlessReserved (w.extractLsb' 0 12) .selAssert
  | 0x7 => unlessReserved (w.extractLsb' 0 12) .selDeassert
  | 0x8 =>
    unlessReserved (w.extractLsb' 10 2) (.spiByte (w.getLsbD 9) (w.getLsbD 8) (w.extractLsb' 0 8))
  | 0x9 => unlessReserved (w.extractLsb' 0 12) .pwrPoll
  | _ => .error .reservedOpcode

/-- The encoder (R83; the operand places are those of R90). -/
def encode : Instr → EventWord
  | .tick => 0x1000#16
  | .hbAck => 0x2000#16
  | .btnPoll raw => 0x3000#16 ||| raw.setWidth 16
  | .adcStart => 0x4000#16
  | .adcDone r => 0x5000#16 ||| r.setWidth 16
  | .selAssert => 0x6000#16
  | .selDeassert => 0x7000#16
  | .spiByte ovf wcol rx =>
    0x8000#16 ||| (BitVec.ofBool ovf).setWidth 16 <<< 9 ||| (BitVec.ofBool wcol).setWidth 16 <<< 8 |||
      rx.setWidth 16
  | .pwrPoll => 0x9000#16

/-- One row of the opcode map (R83). -/
structure OpcodeRow where
  mnemonic : String
  pattern : EventWord
  mask : EventWord
  deriving DecidableEq, Repr

/-- A word selects a row when `(w & mask) = match` (R83). -/
def OpcodeRow.selects (row : OpcodeRow) (w : EventWord) : Bool := (w &&& row.mask) == row.pattern

/-- The row of each event in the opcode map (R83). -/
def Instr.row : Instr → OpcodeRow
  | .tick => ⟨"TICK", 0x1000, 0xFFFF⟩
  | .hbAck => ⟨"HB_ACK", 0x2000, 0xFFFF⟩
  | .btnPoll _ => ⟨"BTN_POLL", 0x3000, 0xFFF0⟩
  | .adcStart => ⟨"ADC_START", 0x4000, 0xFFFF⟩
  | .adcDone _ => ⟨"ADC_DONE", 0x5000, 0xFC00⟩
  | .selAssert => ⟨"SEL_ASSERT", 0x6000, 0xFFFF⟩
  | .selDeassert => ⟨"SEL_DEASSERT", 0x7000, 0xFFFF⟩
  | .spiByte _ _ _ => ⟨"SPI_BYTE", 0x8000, 0xFC00⟩
  | .pwrPoll => ⟨"PWR_POLL", 0x9000, 0xFFFF⟩

/-- The opcode map's defined rows, in the table's order (R83). -/
def opcodeTable : List OpcodeRow :=
  [Instr.tick.row, Instr.hbAck.row, (Instr.btnPoll 0).row, Instr.adcStart.row, (Instr.adcDone 0).row,
   Instr.selAssert.row, Instr.selDeassert.row, (Instr.spiByte false false 0).row, Instr.pwrPoll.row]

/-- The event the decoder reads from a table word of `nbits` bits (bit 0 least significant); every
event is one 16-bit word (R80), and bits above `nbits` are 0. -/
def decodeTableWord (nbits w : Nat) : Option Instr :=
  match decode (BitVec.ofNat 16 (w % 2 ^ nbits)) with
  | .ok i => some i
  | .error _ => none

/-! The assembler of event scripts (R90, R91). -/

/-- The word of `POLL raw`. -/
def asmPoll (raw : Nat) : EventWord := encode (.btnPoll (BitVec.ofNat 4 raw))

/-- The word of `ADONE r`. -/
def asmAdone (r : Nat) : EventWord := encode (.adcDone (BitVec.ofNat 10 r))

/-- The word of `BYTE v` without flags. -/
def asmByte (v : Nat) : EventWord := encode (.spiByte false false (BitVec.ofNat 8 v))

/-- The pin mask of a press of button `b`: `15 & ~(1 << b)` (R91). -/
def pressMask (b : Nat) : Nat := 15 &&& (15 ^^^ 1 <<< b)

/-- The words of one script line (R90) or pseudo-instruction (R91). -/
def ScriptLine.words : ScriptLine → List EventWord
  | .tick => [encode .tick]
  | .hback => [encode .hbAck]
  | .poll raw => [asmPoll raw]
  | .astart => [encode .adcStart]
  | .adone r => [asmAdone r]
  | .sela => [encode .selAssert]
  | .seld => [encode .selDeassert]
  | .byte v ovf wcol => [encode (.spiByte ovf wcol (BitVec.ofNat 8 v))]
  | .ppoll => [encode .pwrPoll]
  | .frame s cs => encode .selAssert :: asmByte s :: cs.map asmByte ++ [encode .selDeassert]
  | .acq rs => encode .adcStart :: rs.map asmAdone
  | .press b => [asmPoll (pressMask b), asmPoll (pressMask b), asmPoll 15, asmPoll 15]
  | .ticks n => List.replicate n (encode .tick)

/-- The words of a script in order (R90, R91). -/
def Script.words : Script → List EventWord
  | .done => []
  | .line x rest => x.words ++ rest.words
  | .rep n body rest => (List.replicate n body.words).flatten ++ rest.words

/-- The assembler (R90, R91). R90 makes an operand out of its range an assembly error without a word;
that the whole script then has no words is the model's, DESIGN CHOICE (log 15). -/
def assemble (s : Script) : Option (List EventWord) := if s.wf then some s.words else none

end Sys2Proof
end

