-- ==== Sys2Proof/Machine/State.lean ====
section
/-! DEFINITION. Machine/State.lean: the architectural state of spec/10_state.md R20, the outputs of
R49, the inputs of R10 and R293, and the reset state of spec/70_reset_and_hazards.md R290. -/

namespace Sys2Proof.Machine

/-- `CH` (R31). -/
inductive Channel where
  /-- The internal fixed reference, encoded 0. -/
  | reference
  /-- The external divider on the board output, encoded 1. -/
  | boardVout
  deriving DecidableEq, Repr

/-- `PHASE` (R39). -/
inductive Phase where
  /-- No frame is open, or the receiver is disabled; encoded 0. -/
  | idle
  /-- A frame is open and fewer than `L` bytes have been accepted; encoded 1. -/
  | active
  /-- The frame completed its `L`-th byte and select is still asserted; encoded 2. -/
  | done
  /-- A byte beyond the `L`-th arrived in this frame; encoded 3. -/
  | aborted
  deriving DecidableEq, Repr

/-- `MODE` (R45). -/
inductive PowerMode where
  /-- ACTIVE, encoded 0. -/
  | active
  /-- LOW_POWER, encoded 1. -/
  | lowPower
  deriving DecidableEq, Repr

/-- The per-event outputs (R49). -/
inductive Output where
  /-- `MISO(v)`: the byte shifted out during an SPI_BYTE. -/
  | miso (v : Byte)
  /-- `CONV_REQ(ch)`: a request to convert one sample of a channel. -/
  | convReq (ch : Channel)
  /-- `ERR_EVT`: an SPI_BYTE ORed at least one error bit. -/
  | errEvt
  deriving DecidableEq, Repr

/-- What the environment can do to the block between two steps. -/
inductive Input where
  /-- It delivers a new event word (R10). -/
  | word (w : EventWord)
  /-- It delivers the `k`-th of the events the block held, counted from 0 in the order they were held:
  the order of delivery is the environment's (R301). -/
  | held (k : Nat)
  /-- It pulls the reset input (R85, R290, R293). -/
  | reset
  deriving DecidableEq, Repr

/-- The block's whole state (R20), then the model's own four fields. Arrays are lists; their lengths
are the invariant `State.Shape` of Safety.lean. -/
structure State where
  /-- `TB[0..L-2]`, the telemetry image (R21); `ERR` is `TB[L-2]` (R27). -/
  tb : List Byte
  /-- `HB`, the heartbeat counter, `HB_WIDTH` bits (R29). -/
  hb : Nat
  /-- `AB[0..3]`, the raw level of each button at the previous poll (R30). -/
  ab : Buttons
  /-- `VALID[0..3]`, the accepted level of each button (R30). -/
  valid : Buttons
  /-- `CH` (R31). -/
  ch : Channel
  /-- `SETTLE` (R32). -/
  settle : BitVec 8
  /-- `ABUSY` (R33). -/
  abusy : Bool
  /-- `BAT_LAST_MV` (R34). -/
  batLastMv : Millivolts
  /-- `VOUT_MV` (R35). -/
  voutMv : Millivolts
  /-- `BAT_AVG_MV` (R36). -/
  batAvgMv : Millivolts
  /-- `RING[0..M-1]` (R37). -/
  ring : List Millivolts
  /-- `RIDX` (R37). -/
  ridx : BitVec 8
  /-- `RCNT` (R37). -/
  rcnt : BitVec 8
  /-- `SEL`, 1 = selected (R38). -/
  sel : Bool
  /-- `PHASE` (R39). -/
  phase : Phase
  /-- `P`, bytes accepted this frame (R41). -/
  pos : BitVec 8
  /-- `SEQ`, the slave's sequence id (R42). -/
  seq : Byte
  /-- `TXBUF[0..L-1]`, the transmit image (R43). -/
  txbuf : List Byte
  /-- `CMD[0..L-1]`, the bytes received (R40). -/
  cmd : List Byte
  /-- `TXCORRUPT` (R44). -/
  txcorrupt : Bool
  /-- `MODE` (R45). -/
  mode : PowerMode
  /-- `LOWCNT` (R46). -/
  lowcnt : BitVec 16
  /-- `REFUSED`, the run-wide mark (R47). -/
  refused : Bool
  /-- The model's: the outputs of the latest step, in the order emitted (R49). -/
  outputs : List Output
  /-- The model's: the inputs of the run still to come (R10). -/
  events : List Input
  /-- The model's: the event words the environment keeps because the block held them (R300). -/
  held : List EventWord
  /-- The model's: how many free draws `any8` have been taken (R14). -/
  draws : Nat
  deriving DecidableEq, Repr

/-- Why the machine could stop with a fault: never. The block has no trap (R271) and no fatal error
(R263), and spec/93_implementation_defined.md says that nothing in it is modelled as a fault, so the
type is empty: no meaning can answer one. -/
inductive Fault where
  deriving DecidableEq, Repr

/-- Why a step could be refused. A word that is not an event is not refused here: R88 gives it an
effect, the mark `REFUSED`. -/
inductive Refusal where
  /-- Raised by an arm of `exec` that has no meaning yet; no arm raises it. Safe. -/
  | notModelled (mnemonic : String)
  deriving DecidableEq, Repr

/-- The telemetry image after reset: 0 but for the error byte `TB[L-2]` (R290). -/
def resetTb (p : Config.Params) : List Byte := List.replicate (p.l - 2) 0 ++ [p.errNone]

/-- The state right after reset for a parameter set (R290), at the start of a run: `REFUSED` is 0 and
the environment has delivered nothing. -/
def State.resetWith (p : Config.Params) : State where
  tb := resetTb p
  hb := 0
  ab := 0
  valid := 0
  ch := .reference
  settle := 0
  abusy := false
  batLastMv := 0
  voutMv := 0
  batAvgMv := 0
  ring := List.replicate p.m 0
  ridx := 0
  rcnt := 0
  sel := false
  phase := .idle
  pos := 0
  seq := 0
  txbuf := List.replicate p.l 0
  cmd := List.replicate p.l 0
  txcorrupt := false
  mode := .active
  lowcnt := 0
  refused := false
  outputs := []
  events := []
  held := []
  draws := 0

/-- The machine right after reset (R290). -/
def State.reset : State := State.resetWith Config.params

end Sys2Proof.Machine
end

