-- ==== Sys2Proof/Machine/Flags.lean ====
section
/-! DEFINITION. Machine/Flags.lean: the bits of the error byte (spec/10_state.md R28,
spec/60_exceptions.md R261), the encodings of the enumerated registers (R20, R31, R39, R45), and the
continuous outputs (R48). -/

namespace Sys2Proof.Machine

/-- OVERFLOW, bit 1 (R28, R261). -/
def errOverflow : Byte := 0x02#8
/-- OVERWRITE, bit 2 (R28, R261). -/
def errOverwrite : Byte := 0x04#8
/-- OUT_OF_INDEX, bit 3 (R28, R261). -/
def errOutOfIndex : Byte := 0x08#8
/-- SEQ_MISMATCH, bit 4 (R28, R261). -/
def errSeqMismatch : Byte := 0x10#8

/-- An error bit where its condition holds, no bit otherwise. -/
def errIf (condition : Bool) (mask : Byte) : Byte := if condition then mask else 0

/-- The error bits one SPI_BYTE raises (R261, R262; R195 steps 2 to 4) in a frame that is not IDLE:
`phase`, `pos` and `seq` are `PHASE`, `P` and `SEQ` as they stood before the byte. -/
def spiErrors (phase : Phase) (pos : BitVec 8) (seq : Byte) (ovf wcol : Bool) (rx : Byte) : Byte :=
  errIf ovf errOverflow |||
  errIf (phase == .active && pos == 0 && rx != 0 && rx != seq) errSeqMismatch |||
  errIf (phase != .active) errOutOfIndex |||
  errIf wcol errOverwrite

/-- The encoding of `CH` (R31). -/
def Channel.code : Channel → BitVec 1
  | .reference => 0
  | .boardVout => 1

/-- `1 - CH` (R146). -/
def Channel.other : Channel → Channel
  | .reference => .boardVout
  | .boardVout => .reference

/-- The encoding of `PHASE` (R39). -/
def Phase.code : Phase → BitVec 2
  | .idle => 0
  | .active => 1
  | .done => 2
  | .aborted => 3

/-- The encoding of `MODE` (R45). -/
def PowerMode.code : PowerMode → BitVec 1
  | .active => 0
  | .lowPower => 1

/-- `TB[k]` (R21). -/
def State.tbByte (s : State) (k : Nat) : Byte := s.tb.getD k 0

/-- `ERR`, another name for `TB[L-2]` (R27). -/
def State.err (p : Config.Params) (s : State) : Byte := s.tbByte (p.l - 2)

/-- `TICK32 = {TB[7], TB[8], TB[9], TB[10]}` (R25). -/
def State.tick32 (s : State) : BitVec 32 :=
  s.tbByte 7 ++ s.tbByte 8 ++ s.tbByte 9 ++ s.tbByte 10

/-- `{TB[4], TB[5]}`, the battery telemetry (R23). -/
def State.batTel (s : State) : Millivolts := s.tbByte 4 ++ s.tbByte 5

/-! The continuous outputs (R48), in logical polarity (R15). -/

/-- `ATTN`: some press counter is not zero (R48, R269). -/
def State.attn (s : State) : Bool :=
  (s.tbByte 0 ||| s.tbByte 1 ||| s.tbByte 2 ||| s.tbByte 3) != 0

/-- `BUSY`: a frame is open (R48). -/
def State.busy (s : State) : Bool := s.phase == .active

/-- `MUX_CH` (R48, R141). -/
def State.muxCh (s : State) : Channel := s.ch

/-- `SPI_EN`: the serial receiver is enabled (R48, R208). -/
def State.spiEn (s : State) : Bool := s.mode == .active

/-- `HB_DUE` (R48, R105). -/
def State.hbDue (p : Config.Params) (s : State) : Bool := decide (p.hbThreshold ≤ s.hb)

/-- `MODE_OUT` (R48). -/
def State.modeOut (s : State) : PowerMode := s.mode

end Sys2Proof.Machine
end

