-- ==== Sys2Proof/Machine/Ops.lean ====
section
/-! DEFINITION. Machine/Ops.lean: the operations the meanings share: the arithmetic primitives of
spec/00_scope.md R13, writes of the telemetry image, outputs and free draws (R14, R49), the recording
and the clear of an error (spec/60_exceptions.md R260), the hold of spec/70_reset_and_hazards.md R300,
the reset input (R290, R293), and the delivery of the environment's next input (R10, R301). -/

namespace Sys2Proof.Machine

/-- `sat_inc(x, MAX)` (R13). -/
def satInc (x max : Nat) : Nat := if x < max then x + 1 else max

/-- `wrap_inc(x, W)` (R13). -/
def wrapInc (x width : Nat) : Nat := (x + 1) % 2 ^ width

/-- `a div b` (R13), which the spec defines for `b > 0` only. Division by 0 is a free value, DESIGN
CHOICE (log 20); only BOARD_VOUT with `ADC_FS = 0`, which R8 admits, can reach it (R150). -/
def natDiv (a b : Nat) : Nat := if b = 0 then Config.divByZero a else a / b

/-- `TB[k] <- v` (R12). -/
def State.writeTb (s : State) (k : Nat) (v : Byte) : State := { s with tb := s.tb.set k v }

/-- `emit` of one output (R14). -/
def State.emit (s : State) (o : Output) : State := { s with outputs := s.outputs ++ [o] }

/-- The outputs of the previous step are over; the step about to run has emitted nothing (R49). -/
def State.quiet (s : State) : State := { s with outputs := [] }

/-- `emit MISO(any8)`: the reply byte is the next free draw (R14, R196). -/
def State.emitDraw (s : State) : State :=
  { s with outputs := s.outputs ++ [.miso (Config.any8 s.draws)], draws := s.draws + 1 }

/-- `ERR <- v`, which writes `TB[L-2]` (R27). -/
def State.setErr (p : Config.Params) (s : State) (v : Byte) : State := s.writeTb (p.l - 2) v

/-- Recording error conditions: `ERR <- ERR | mask` and nothing else (R260). The block has no trap
entry (R271); this is the one operation that stands in its place. -/
def State.recordErr (p : Config.Params) (s : State) (mask : Byte) : State :=
  s.setErr p (s.err p ||| mask)

/-- The clear `ERR <- ERR_NONE` (R28, R212). The block has no trap return (R272). -/
def State.clearErr (p : Config.Params) (s : State) : State := s.setErr p p.errNone

/-- A hold: no register changes, nothing is emitted, and the event word stays with the environment
(R300). -/
def State.hold (s : State) (i : Instr) : State :=
  { s with outputs := [], held := s.held ++ [encode i] }

/-- The outcome of a non-serial event with effect `f`: held while a frame is open, applied otherwise
(R192, R300). -/
def nonSerial (i : Instr) (f : State → State) (s : State) : Host.Outcome State Fault Refusal :=
  .next (if s.phase = .active then s.hold i else f s.quiet)

/-- The outcome of a serial event with effect `f`: never held (R300). -/
def serial (f : State → State) (s : State) : Host.Outcome State Fault Refusal := .next (f s.quiet)

/-- A word that encodes no event: no register changes, nothing is emitted, and the run-wide mark is
set (R47, R88). -/
def State.refuseWord (s : State) : State := { s with outputs := [], refused := true }

/-- The reset input (R290): every register takes its reset value whatever the state. `REFUSED` is kept,
and so is what is the environment's: the inputs still to come and the events it holds, its own to drop
or deliver (R293). -/
def State.applyReset (p : Config.Params) (s : State) : State :=
  { State.resetWith p with
    refused := s.refused
    events := s.events
    held := s.held
    draws := s.draws }

/-- What reaches the block in one step. -/
inductive Delivery where
  /-- Nothing: the environment has no input, or names a held event that is not there. -/
  | nothing
  /-- One event word. -/
  | word (w : EventWord)
  /-- The reset input. -/
  | reset
  deriving DecidableEq, Repr

/-- What the environment's next input delivers, and the state once that input is taken: a new word, a
held word, which is then no longer pending (R300, R301), or the reset input. -/
def State.takeInput (s : State) : Delivery × State :=
  match s.events with
  | [] => (.nothing, s)
  | .word w :: rest => (.word w, { s with events := rest })
  | .held k :: rest =>
    match s.held[k]? with
    | some w => (.word w, { s with events := rest, held := s.held.eraseIdx k })
    | none => (.nothing, { s with events := rest })
  | .reset :: rest => (.reset, { s with events := rest })

/-- One step of the block, given the meanings of the events: it waits where nothing is delivered
(R291), applies the reset input (R290), refuses a word that encodes no event (R88), and runs the event
the decoder reads (R10, R86). -/
def deliver (p : Config.Params) (run : Instr → State → Host.Outcome State Fault Refusal) (s : State) :
    Host.Outcome State Fault Refusal :=
  match s.takeInput with
  | (.nothing, t) => .next t.quiet
  | (.reset, t) => .next (t.applyReset p)
  | (.word w, t) =>
    match decode w with
    | .ok i => run i t
    | .error _ => .next t.refuseWord

/-- An event word placed as the environment's next input. -/
def State.placeNext (s : State) (w : EventWord) : State :=
  { s with events := .word w :: s.events }

end Sys2Proof.Machine
end

