-- ==== Sys2Proof/Machine/Operands.lean ====
section
/-! DEFINITION. Machine/Operands.lean: what the operand fields of an event mean (spec/30_encoding.md
R82): the pin levels of BTN_POLL lane by lane, and the raw code of ADC_DONE as a natural number and in
millivolts (spec/42_adc.md R147, R150). -/

namespace Sys2Proof.Machine

/-- The button lanes `0..3`. -/
def lanes : List Nat := [0, 1, 2, 3]

/-- Level `b` of a four-lane operand or register, for `b` in `0..3` (R82). -/
def level (x : Buttons) (b : Nat) : Bool := x.getLsbD b

/-- The four lanes of a register, from a value for each lane. -/
def ofLanes (f : Nat → Bool) : Buttons :=
  BitVec.ofBool (f 3) ++ BitVec.ofBool (f 2) ++ BitVec.ofBool (f 1) ++ BitVec.ofBool (f 0)

/-- The supply voltage of a REFERENCE code, `(ADC_FS * VREF_MV) div r`, for `r > 0` (R147). -/
def referenceMv (p : Config.Params) (r : AdcCode) : Nat := natDiv (p.adcFs * p.vrefMv) r.toNat

/-- A REFERENCE code is rejected when it is the sentinel, is zero, or computes a voltage above the
ceiling (R147). -/
def referenceRejected (p : Config.Params) (r : AdcCode) : Bool :=
  decide (r.toNat = p.sentinel) || decide (r.toNat = 0) || decide (p.vCeilMv < referenceMv p r)

/-- The board-output voltage of a BOARD_VOUT code, `(r * BAT_LAST_MV) div ADC_FS` (R150). Where
`ADC_FS = 0`, which R8 admits with `ADC_BITS = 0`, the spec gives no quotient (R13) and this is a free
value, the model's choice (log 20). -/
def boardVoutMv (p : Config.Params) (batLastMv : Millivolts) (r : AdcCode) : Nat :=
  natDiv (r.toNat * batLastMv.toNat) p.adcFs

end Sys2Proof.Machine
end

