-- ==== Sys2Proof/Machine/Average.lean ====
section
/-! DEFINITION. Machine/Average.lean: the rolling-average filter, the sub-operation of ADC_DONE on an
accepted REFERENCE sample (spec/43_average.md R170 to R178). -/

namespace Sys2Proof.Machine

/-- `ring_push(v)` (R170). Each entry is one 16-bit value (R173). -/
def State.ringPush (p : Config.Params) (s : State) (v : Millivolts) : State :=
  { s with
    ring := s.ring.set s.ridx.toNat v
    ridx := BitVec.ofNat 8 ((s.ridx.toNat + 1) % p.m)
    rcnt := BitVec.ofNat 8 (min (s.rcnt.toNat + 1) p.m) }

/-- The exact sum of the valid entries `RING[0..RCNT-1]` (R172). -/
def State.ringSum (s : State) : Nat := ((s.ring.take s.rcnt.toNat).map BitVec.toNat).sum

/-- `BAT_AVG_MV <- S div RCNT` (R172). -/
def State.updateMean (s : State) : State :=
  { s with batAvgMv := BitVec.ofNat 16 (natDiv s.ringSum s.rcnt.toNat) }

/-- The diode-drop correction, chosen by `VOUT_MV` (R174). -/
def State.dropMv (p : Config.Params) (s : State) : Nat :=
  if s.voutMv.toNat < p.vOperMv then p.dropLoMv else p.dropHiMv

/-- `BAT_TEL`, the corrected mean (R175). -/
def State.correctedMean (p : Config.Params) (s : State) : Millivolts :=
  BitVec.ofNat 16 (s.batAvgMv.toNat + s.dropMv p)

/-- `TB[4]` and `TB[5]` take the high and the low byte of a value in one step (R64, R175). -/
def State.writeBatTel (s : State) (v : Millivolts) : State :=
  (s.writeTb 4 (v.extractLsb' 8 8)).writeTb 5 (v.extractLsb' 0 8)

/-- The telemetry write (R175). -/
def State.updateTelemetry (p : Config.Params) (s : State) : State := s.writeBatTel (s.correctedMean p)

/-- An accepted sample: push, mean, telemetry, in one step (R170 to R175). -/
def State.average (p : Config.Params) (s : State) (v : Millivolts) : State :=
  ((s.ringPush p v).updateMean).updateTelemetry p

end Sys2Proof.Machine
end

