-- ==== Sys2Proof/Machine/Adc.lean ====
section
/-! DEFINITION. Machine/Adc.lean: ADC_START and ADC_DONE (spec/42_adc.md R140 to R157). -/

namespace Sys2Proof.Machine

/-- The effect of ADC_START (R140, R145). -/
def adcStart (s : State) : State :=
  if s.abusy then s else { s with settle := 0, abusy := true }.emit (.convReq s.ch)

/-- `process_ref(r)`: a rejected code changes nothing (R147, R149); an accepted one is stored, pushed
and averaged (R148). -/
def processReference (p : Config.Params) (r : AdcCode) (s : State) : State :=
  if referenceRejected p r then s
  else
    { s with batLastMv := BitVec.ofNat 16 (referenceMv p r) }.average p
      (BitVec.ofNat 16 (referenceMv p r))

/-- `process_vout(r)`: a value above the ceiling changes nothing, any other is stored (R150, R151). -/
def processBoardVout (p : Config.Params) (r : AdcCode) (s : State) : State :=
  if p.vCeilMv < boardVoutMv p s.batLastMv r then s
  else { s with voutMv := BitVec.ofNat 16 (boardVoutMv p s.batLastMv r) }

/-- A settled sample is processed on the selected channel (R142). -/
def processSample (p : Config.Params) (r : AdcCode) (s : State) : State :=
  match s.ch with
  | .reference => processReference p r s
  | .boardVout => processBoardVout p r s

/-- The end of an acquisition (R146). -/
def State.endAcquisition (s : State) : State :=
  { s with ch := s.ch.other, settle := 0, abusy := false }

/-- The effect of ADC_DONE (R142, R144). -/
def adcDone (p : Config.Params) (r : AdcCode) (s : State) : State :=
  if !s.abusy then s
  else if s.settle.toNat + 1 < p.settleN then
    { s with settle := BitVec.ofNat 8 (s.settle.toNat + 1) }.emit (.convReq s.ch)
  else (processSample p r s).endAcquisition

/-- ADC_START (R140, R156). -/
def adcStartEvent (s : State) : Host.Outcome State Fault Refusal := nonSerial .adcStart adcStart s

/-- ADC_DONE for a parameter set (R142, R156). -/
def adcDoneEvent (p : Config.Params) (r : AdcCode) (s : State) : Host.Outcome State Fault Refusal :=
  nonSerial (.adcDone r) (adcDone p r) s

/-- The meaning of ADC_START. -/
def execAdcStart (s : State) : Host.Outcome State Fault Refusal := adcStartEvent s

/-- The meaning of ADC_DONE. -/
def execAdcDone (r : AdcCode) (s : State) : Host.Outcome State Fault Refusal :=
  adcDoneEvent Config.params r s

end Sys2Proof.Machine
end

