-- ==== Sys2Proof/Machine/Debounce.lean ====
section
/-! DEFINITION. Machine/Debounce.lean: BTN_POLL (spec/41_debounce.md R120 to R125). -/

namespace Sys2Proof.Machine

/-- `accept_b`: the level agrees with the previous sample and differs from the accepted level, all
from the state before the event (R120). -/
def accepts (s : State) (raw : Buttons) (b : Nat) : Bool :=
  level raw b == level s.ab b && level raw b != level s.valid b

/-- The accepted level of lane `b` after the poll (R122). -/
def acceptedLevel (s : State) (raw : Buttons) (b : Nat) : Bool :=
  if accepts s raw b then level raw b else level s.valid b

/-- A press of button `b` is accepted: a transition to level 0 (R121). -/
def acceptsPress (s : State) (raw : Buttons) (b : Nat) : Bool := accepts s raw b && !level raw b

/-- `TB[b] <- sat_inc(TB[b], CNT_MAX)` (R121). -/
def State.countPress (p : Config.Params) (s : State) (b : Nat) : State :=
  s.writeTb b (BitVec.ofNat 8 (satInc (s.tbByte b).toNat p.cntMax))

/-- The press counters after the poll (R120, R121). The lanes are taken from the state before the
event, `s0`. -/
def countPresses (p : Config.Params) (s0 : State) (raw : Buttons) (s : State) : State :=
  lanes.foldl (fun t b => if acceptsPress s0 raw b then t.countPress p b else t) s

/-- The interrupt-line byte: 1 when some accepted level is pressed (R24, R123). -/
def interruptLine (valid : Buttons) : Byte := if lanes.any (fun b => !level valid b) then 1 else 0

/-- The effect of BTN_POLL (R120). -/
def btnPoll (p : Config.Params) (raw : Buttons) (s : State) : State :=
  let valid := ofLanes (acceptedLevel s raw)
  { (countPresses p s raw s).writeTb 6 (interruptLine valid) with ab := raw, valid := valid }

/-- BTN_POLL for a parameter set (R120, R124). -/
def btnPollEvent (p : Config.Params) (raw : Buttons) (s : State) : Host.Outcome State Fault Refusal :=
  nonSerial (.btnPoll raw) (btnPoll p raw) s

/-- The meaning of BTN_POLL. -/
def execBtnPoll (raw : Buttons) (s : State) : Host.Outcome State Fault Refusal :=
  btnPollEvent Config.params raw s

end Sys2Proof.Machine
end

