-- ==== Sys2Proof/Machine/Power.lean ====
section
/-! DEFINITION. Machine/Power.lean: PWR_POLL, the power-mode hysteresis comparator (spec/45_power.md
R240 to R249). -/

namespace Sys2Proof.Machine

/-- A poll is low when `VOUT_MV` is below `V_OFF_MV`, strictly (R241). -/
def State.pollLow (p : Config.Params) (s : State) : Bool := decide (s.voutMv.toNat < p.vOffMv)

/-- The count of consecutive low polls after a poll (R240). -/
def State.countLow (p : Config.Params) (s : State) : BitVec 16 :=
  if s.pollLow p then BitVec.ofNat 16 (min (s.lowcnt.toNat + 1) p.lowLimit) else 0

/-- `enter_low_power()` (R243). -/
def State.enterLowPower (s : State) : State := { s with mode := .lowPower, phase := .idle }

/-- `wake()` (R244). -/
def State.wake (p : Config.Params) (s : State) : State :=
  { s.clearErr p with
    mode := .active
    phase := .idle
    txcorrupt := false
    seq := if p.reinitClearsSeq then 0 else s.seq }

/-- The effect of PWR_POLL (R240). -/
def pwrPoll (p : Config.Params) (s : State) : State :=
  let t := { s with lowcnt := s.countLow p }
  if t.mode = .active ∧ t.lowcnt.toNat = p.lowLimit then t.enterLowPower
  else if t.mode = .lowPower ∧ p.vOnMv ≤ t.voutMv.toNat then t.wake p
  else t

/-- PWR_POLL for a parameter set (R240, R248). -/
def pwrPollEvent (p : Config.Params) (s : State) : Host.Outcome State Fault Refusal :=
  nonSerial .pwrPoll (pwrPoll p) s

/-- The meaning of PWR_POLL. -/
def execPwrPoll (s : State) : Host.Outcome State Fault Refusal := pwrPollEvent Config.params s

end Sys2Proof.Machine
end

