-- ==== Sys2Proof/Machine/Serial.lean ====
section
/-! DEFINITION. Machine/Serial.lean: SEL_ASSERT, SEL_DEASSERT and SPI_BYTE (spec/44_serial.md R190 to
R212). -/

namespace Sys2Proof.Machine

/-- The reply snapshot: `TXBUF[0..L-2]` takes a copy of `TB[0..L-2]`, `TXBUF[L-1]` keeps its value
(R191). -/
def State.snapshot (p : Config.Params) (s : State) : List Byte :=
  s.tb.take (p.l - 1) ++ s.txbuf.drop (p.l - 1)

/-- A frame opens (R190, R191). -/
def State.openFrame (p : Config.Params) (s : State) : State :=
  { s with phase := .active, pos := 0, txcorrupt := false, txbuf := s.snapshot p }

/-- The effect of SEL_ASSERT (R190, R208). -/
def selAssert (p : Config.Params) (s : State) : State :=
  if s.sel then s
  else if s.mode = .active then { s with sel := true }.openFrame p
  else { s with sel := true }

/-- The effect of SEL_DEASSERT (R193, R194). -/
def selDeassert (s : State) : State := if s.sel then { s with sel := false, phase := .idle } else s

/-- The reply byte of an SPI_BYTE that is not idle: `TXBUF[P]` in an open frame, a free draw after a
write collision or after the frame (R196). A position outside the array, which no run reaches (R61),
replies a draw too. -/
def State.emitReply (s : State) : State :=
  if s.txcorrupt = true ∨ s.phase ≠ .active then s.emitDraw
  else
    match s.txbuf[s.pos.toNat]? with
    | some v => s.emit (.miso v)
    | none => s.emitDraw

/-- Step 1 of SPI_BYTE: the reply byte of this byte time, then `TXCORRUPT <- 0` (R195). -/
def State.reply (s : State) : State := { s.emitReply with txcorrupt := false }

/-- The sequence id after a declared id is validated and before the increment: 0 resets it, another
id resynchronises it (R200). -/
def resync (seq rx : Byte) : Byte := if rx = 0 then 0 else if rx != seq then rx else seq

/-- Position 0: the id is resynchronised and incremented, and the acknowledgement goes to the last
slot (R200, R211). -/
def State.acknowledge (p : Config.Params) (s : State) (rx : Byte) : State :=
  { s with seq := resync s.seq rx + 1, txbuf := s.txbuf.set (p.l - 1) (resync s.seq rx + 1) }

/-- `CMD[P] <- rx` (R198). -/
def State.storeByte (s : State) (rx : Byte) : State := { s with cmd := s.cmd.set s.pos.toNat rx }

/-- Step 3 of SPI_BYTE: a byte of an open frame is stored, handled as the declared id at position 0,
and advances the position (R198 to R200); a later byte aborts the frame and is stored nowhere
(R202). -/
def State.takeByte (p : Config.Params) (s : State) (rx : Byte) : State :=
  if s.phase = .active then
    { (if s.pos = 0 then (s.storeByte rx).acknowledge p rx else s.storeByte rx) with pos := s.pos + 1 }
  else { s with phase := .aborted }

/-- Steps 4 and 5 of SPI_BYTE: a write collision spoils the next reply byte (R203); the error bits are
recorded, and `ERR_EVT` is emitted when there is one (R206, R260). -/
def State.recordByte (p : Config.Params) (s : State) (wcol : Bool) (e : Byte) : State :=
  let t := { s with txcorrupt := s.txcorrupt || wcol }.recordErr p e
  if e = 0 then t else t.emit .errEvt

/-- All four press counters become 0 (R205). -/
def State.clearCounters (s : State) : State :=
  (((s.writeTb 0 0).writeTb 1 0).writeTb 2 0).writeTb 3 0

/-- Step 6 of SPI_BYTE: the clear rule, then completion, when the `L`-th byte was just accepted (R204,
R205). -/
def State.complete (p : Config.Params) (s : State) : State :=
  if s.phase = .active ∧ s.pos.toNat = p.l then
    { (if s.cmd.head? = some 1 then s.clearErr p else s).clearCounters with phase := .done }
  else s

/-- The effect of SPI_BYTE (R195, R207). -/
def spiByte (p : Config.Params) (ovf wcol : Bool) (rx : Byte) (s : State) : State :=
  if s.phase = .idle then s.emitDraw
  else
    let e := spiErrors s.phase s.pos s.seq ovf wcol rx
    (((s.reply).takeByte p rx).recordByte p wcol e).complete p

/-- SEL_ASSERT for a parameter set (R190). -/
def selAssertEvent (p : Config.Params) (s : State) : Host.Outcome State Fault Refusal :=
  serial (selAssert p) s

/-- SEL_DEASSERT (R193). -/
def selDeassertEvent (s : State) : Host.Outcome State Fault Refusal := serial selDeassert s

/-- SPI_BYTE for a parameter set (R195). -/
def spiByteEvent (p : Config.Params) (ovf wcol : Bool) (rx : Byte) (s : State) :
    Host.Outcome State Fault Refusal :=
  serial (spiByte p ovf wcol rx) s

/-- The meaning of SEL_ASSERT. -/
def execSelAssert (s : State) : Host.Outcome State Fault Refusal := selAssertEvent Config.params s

/-- The meaning of SEL_DEASSERT. -/
def execSelDeassert (s : State) : Host.Outcome State Fault Refusal := selDeassertEvent s

/-- The meaning of SPI_BYTE. -/
def execSpiByte (ovf wcol : Bool) (rx : Byte) (s : State) : Host.Outcome State Fault Refusal :=
  spiByteEvent Config.params ovf wcol rx s

end Sys2Proof.Machine
end

