-- ==== Sys2Proof/Machine/Tick.lean ====
section
/-! DEFINITION. Machine/Tick.lean: TICK and HB_ACK (spec/40_tick.md R100 to R106). -/

namespace Sys2Proof.Machine

/-- `TB[k] <- (TB[k] + 1) mod 256` (R100). -/
def State.incTb (s : State) (k : Nat) : State := s.writeTb k (s.tbByte k + 1)

/-- The overflow chain through the bytes at `ks`, least significant first: each byte is incremented
when every byte before it has just wrapped to 0 (R100). -/
def State.chain (s : State) : List Nat → State
  | [] => s
  | k :: ks => if (s.incTb k).tbByte k = 0 then (s.incTb k).chain ks else s.incTb k

/-- The effect of TICK (R100, R101). -/
def tick (p : Config.Params) (s : State) : State :=
  { s.chain [10, 9, 8, 7] with hb := wrapInc s.hb p.hbWidth }

/-- The effect of HB_ACK (R104). -/
def hbAck (s : State) : State := { s with hb := 0 }

/-- TICK for a parameter set (R100, R103). -/
def tickEvent (p : Config.Params) (s : State) : Host.Outcome State Fault Refusal :=
  nonSerial .tick (tick p) s

/-- HB_ACK (R104). -/
def hbAckEvent (s : State) : Host.Outcome State Fault Refusal := nonSerial .hbAck hbAck s

/-- The meaning of TICK. -/
def execTick (s : State) : Host.Outcome State Fault Refusal := tickEvent Config.params s

/-- The meaning of HB_ACK. -/
def execHbAck (s : State) : Host.Outcome State Fault Refusal := hbAckEvent s

end Sys2Proof.Machine
end

