-- ==== Sys2Proof/Machine/Dispatch.lean ====
section
/-! DEFINITION. Machine/Dispatch.lean: one arm per event, each one direct call of its meaning. -/

namespace Sys2Proof.Machine

def exec (i : Instr) (s : State) : Host.Outcome State Fault Refusal :=
  match i with
  | .tick => Sys2Proof.Machine.execTick s
  | .hbAck => Sys2Proof.Machine.execHbAck s
  | .btnPoll raw => Sys2Proof.Machine.execBtnPoll raw s
  | .adcStart => Sys2Proof.Machine.execAdcStart s
  | .adcDone r => Sys2Proof.Machine.execAdcDone r s
  | .selAssert => Sys2Proof.Machine.execSelAssert s
  | .selDeassert => Sys2Proof.Machine.execSelDeassert s
  | .spiByte ovf wcol rx => Sys2Proof.Machine.execSpiByte ovf wcol rx s
  | .pwrPoll => Sys2Proof.Machine.execPwrPoll s

end Sys2Proof.Machine
end

