-- ==== Sys2Proof/Machine/Step.lean ====
section
/-! DEFINITION. Machine/Step.lean: the step of the machine, and the placing of one event word where
the next step takes it. -/

namespace Sys2Proof.Machine

/-- One step: the run's next input is delivered (R10); an event word runs as `exec` says. -/
def step (s : State) : Host.Outcome State Fault Refusal := deliver Config.params exec s

/-- `s` with the event of a table word placed as the next input. Every event is one 16-bit word (R80),
and bits above `nbits` are 0. -/
def State.withFetchWord (s : State) (nbits w : Nat) : State :=
  s.placeNext (BitVec.ofNat 16 (w % 2 ^ nbits))

end Sys2Proof.Machine
end

