-- ==== Sys2Proof/Machine/Parametric.lean ====
section
/-! DEFINITION. Machine/Parametric.lean: the same machine with its parameters as an argument
(spec/00_scope.md R7, R8). `exec` and `step` are these at `Config.params`. -/

namespace Sys2Proof.Machine

/-- The meaning of an event for a parameter set (R7). -/
def execWith (p : Config.Params) (i : Instr) (s : State) : Host.Outcome State Fault Refusal :=
  match i with
  | .tick => tickEvent p s
  | .hbAck => hbAckEvent s
  | .btnPoll raw => btnPollEvent p raw s
  | .adcStart => adcStartEvent s
  | .adcDone r => adcDoneEvent p r s
  | .selAssert => selAssertEvent p s
  | .selDeassert => selDeassertEvent s
  | .spiByte ovf wcol rx => spiByteEvent p ovf wcol rx s
  | .pwrPoll => pwrPollEvent p s

/-- One step for a parameter set (R7). -/
def stepWith (p : Config.Params) (s : State) : Host.Outcome State Fault Refusal :=
  deliver p (execWith p) s

/-- The machine of a parameter set; a set that fails a constraint of R8 is refused: it has none
(I-10). -/
def modelOf (p : Config.Params) : Option Host.Core :=
  if p.wf then
    some
      { State := State
        Fault := Fault
        Refusal := Refusal
        step := stepWith p
        reset := State.resetWith p }
  else none

end Sys2Proof.Machine
end

