-- ==== Sys2Proof/Safety.lean ====
section
/-! DEFINITION. Safety.lean: the terms claims use: the registers without the model's own fields, the
invariants of spec/10_state.md R37 and R52, runs of events (R10), what a finished and an unrefused run
is (R47, R302), and the premises on the environment that no step builds in (R157, R268). -/

namespace Sys2Proof.Machine

/-- The registers of R20 alone: the model's own fields erased. -/
def State.regs (s : State) : State := { s with outputs := [], events := [], held := [], draws := 0 }

/-- Every array of R20 has its length: `TB` `L-1`, `TXBUF` and `CMD` `L`, `RING` `M`. -/
abbrev State.Shape (p : Config.Params) (s : State) : Prop :=
  s.tb.length = p.l - 1 ∧ s.txbuf.length = p.l ∧ s.cmd.length = p.l ∧ s.ring.length = p.m

/-- R52 (a): the ring's counters. -/
abbrev State.RingBounds (p : Config.Params) (s : State) : Prop :=
  s.rcnt.toNat ≤ p.m ∧ s.ridx.toNat < p.m

/-- R52 (b): the frame position. -/
abbrev State.PositionBounds (p : Config.Params) (s : State) : Prop :=
  s.pos.toNat ≤ p.l ∧ (s.phase = .active → s.pos.toNat < p.l) ∧ (s.phase = .done → s.pos.toNat = p.l)

/-- R52 (c): the settle counter. -/
abbrev State.SettleBounds (p : Config.Params) (s : State) : Prop :=
  (s.abusy = false → s.settle = 0) ∧ s.settle.toNat < p.settleN

/-- R52 (d): the error byte, `ERR[0] = 1` and `ERR[7:5] = 0`. -/
abbrev State.ErrBits (p : Config.Params) (s : State) : Prop :=
  (s.err p).getLsbD 0 = true ∧ (s.err p).extractLsb' 5 3 = 0

/-- R52 (e): the reserved telemetry bytes `TB[11..L-3]` are 0. -/
abbrev State.ReservedZero (p : Config.Params) (s : State) : Prop :=
  ∀ k < p.l - 2, 11 ≤ k → s.tbByte k = 0

/-- R52 (f): the low-poll counter. -/
abbrev State.LowBounds (p : Config.Params) (s : State) : Prop := s.lowcnt.toNat ≤ p.lowLimit

/-- R52 (g): the stored readings. -/
abbrev State.ReadingBounds (p : Config.Params) (s : State) : Prop :=
  s.batLastMv.toNat ≤ p.vCeilMv ∧ s.voutMv.toNat ≤ p.vCeilMv

/-- R52 (h): a phase other than IDLE needs select and ACTIVE mode. -/
abbrev State.PhaseGuard (s : State) : Prop :=
  s.phase ≠ .idle → s.sel = true ∧ s.mode = .active

/-- The heartbeat counter has `HB_WIDTH` bits (R20, R29). -/
abbrev State.HeartbeatWidth (p : Config.Params) (s : State) : Prop := s.hb < 2 ^ p.hbWidth

/-- The invariants of R52, (a) to (h), with the widths of the arrays and of `HB` that R20 gives. -/
structure State.Inv (p : Config.Params) (s : State) : Prop where
  shape : s.Shape p
  heartbeat : s.HeartbeatWidth p
  ring : s.RingBounds p
  position : s.PositionBounds p
  settle : s.SettleBounds p
  err : s.ErrBits p
  reserved : s.ReservedZero p
  low : s.LowBounds p
  readings : s.ReadingBounds p
  phase : s.PhaseGuard

/-- R37: the bounds of the ring counters, and `RIDX = RCNT` while the ring is not full. -/
abbrev State.RingFilling (p : Config.Params) (s : State) : Prop :=
  s.RingBounds p ∧ (s.rcnt.toNat < p.m → s.ridx = s.rcnt)

/-- Every stored ring entry is an accepted reading or the reset value: at most `V_CEIL_MV` (R170). -/
abbrev State.RingReadings (p : Config.Params) (s : State) : Prop := ∀ e ∈ s.ring, e.toNat ≤ p.vCeilMv

/-- The reset values of every register but `REFUSED`, as R290 lists them. -/
structure State.AtReset (p : Config.Params) (s : State) : Prop where
  tb : s.tb = List.replicate (p.l - 2) 0 ++ [p.errNone]
  hb : s.hb = 0
  debounce : s.ab = 0 ∧ s.valid = 0
  adc : s.ch = .reference ∧ s.settle = 0 ∧ s.abusy = false
  readings : s.batLastMv = 0 ∧ s.voutMv = 0 ∧ s.batAvgMv = 0
  ring : s.ring = List.replicate p.m 0 ∧ s.ridx = 0 ∧ s.rcnt = 0
  frame : s.sel = false ∧ s.phase = .idle ∧ s.pos = 0 ∧ s.seq = 0
  buffers : s.txbuf = List.replicate p.l 0 ∧ s.cmd = List.replicate p.l 0 ∧ s.txcorrupt = false
  power : s.mode = .active ∧ s.lowcnt = 0

/-! Runs of events (R10). -/

/-- A run of events in order: the last state and every output in the order emitted, if no event
stops. -/
def runWith (p : Config.Params) : List Instr → State → Option (State × List Output)
  | [], s => some (s, [])
  | i :: is, s =>
    match execWith p i s with
    | .next t => (runWith p is t).map fun r => (r.1, t.outputs ++ r.2)
    | .fault _ => none
    | .refused _ => none

/-- A run of events of the machine. -/
def runEvents : List Instr → State → Option (State × List Output)
  | [], s => some (s, [])
  | i :: is, s =>
    match exec i s with
    | .next t => (runEvents is t).map fun r => (r.1, t.outputs ++ r.2)
    | .fault _ => none
    | .refused _ => none

/-- The raw code of an ADC_DONE. -/
def adcCode : Instr → Option AdcCode
  | .adcDone r => some r
  | .tick => none
  | .hbAck => none
  | .btnPoll _ => none
  | .adcStart => none
  | .selAssert => none
  | .selDeassert => none
  | .spiByte _ _ _ => none
  | .pwrPoll => none

/-- The REFERENCE readings that a run of events accepts, in order: an ADC_DONE that is not held, ends
an acquisition on REFERENCE and is not rejected (R142, R147, R148, R300). -/
def acceptedReadings (p : Config.Params) : List Instr → State → List Nat
  | [], _ => []
  | i :: is, s =>
    let here := match adcCode i with
      | some r =>
        if s.phase ≠ .active ∧ s.abusy = true ∧ p.settleN ≤ s.settle.toNat + 1 ∧ s.ch = .reference ∧
            referenceRejected p r = false then [referenceMv p r] else []
      | none => []
    match execWith p i s with
    | .next t => here ++ acceptedReadings p is t
    | .fault _ => here
    | .refused _ => here

/-- The reply bytes among outputs (R49). -/
def replyBytes (os : List Output) : List Byte :=
  os.filterMap fun o => match o with
    | .miso v => some v
    | .convReq _ => none
    | .errEvt => none

/-- The conversion requests among outputs (R49). -/
def requests (os : List Output) : List Channel :=
  os.filterMap fun o => match o with
    | .miso _ => none
    | .convReq ch => some ch
    | .errEvt => none

/-- The events of one frame of bytes, each with its `ovf` and `wcol` flags, opened and ended by select
(R91, R192). -/
def frameOf (bytes : List (Bool × Bool × Byte)) : List Instr :=
  .selAssert :: bytes.map (fun b => .spiByte b.1 b.2.1 b.2.2) ++ [.selDeassert]

/-! What a run must be for a claim about it (R47, R302). -/

/-- A run that ends with a frame open is not finished (R302). -/
def State.finished (s : State) : Bool := s.phase != .active

/-- `k` steps run without a stop, and no refused word was met (R47). -/
def SafeRun (k : Nat) (s : State) : Prop :=
  ∃ t, Sys2Proof.core.run k s = .next t ∧ t.refused = false

/-! Premises on the environment. A claim that needs one takes it as a hypothesis. -/

/-- The interrupt sources in priority order: SPI_BYTE, TICK, ADC_DONE (R267, R268). -/
def interruptRank : Instr → Option Nat
  | .spiByte _ _ _ => some 0
  | .tick => some 1
  | .adcDone _ => some 2
  | .hbAck => none
  | .btnPoll _ => none
  | .adcStart => none
  | .selAssert => none
  | .selDeassert => none
  | .pwrPoll => none

/-- The main-loop events (R267). -/
def isMainLoop : Instr → Bool
  | .hbAck => true
  | .btnPoll _ => true
  | .adcStart => true
  | .pwrPoll => true
  | .tick => false
  | .adcDone _ => false
  | .selAssert => false
  | .selDeassert => false
  | .spiByte _ _ _ => false

/-- With `pending` waiting at a dispatch point, `i` may be delivered: no pending interrupt comes before
an interrupt, and none is pending before a main-loop event (R268). -/
def mayDeliver (pending : List Instr) (i : Instr) : Bool :=
  match interruptRank i with
  | some k => pending.all fun j => (interruptRank j).all fun n => decide (k ≤ n)
  | none => !isMainLoop i || pending.all fun j => (interruptRank j).isNone

/-- The priority premise on a schedule: each dispatch point with what was pending and what was
delivered (R268). -/
def RespectsPriority (schedule : List (List Instr × Instr)) : Prop :=
  ∀ point ∈ schedule, mayDeliver point.1 point.2 = true

/-- Whether an event is an ADC_DONE. -/
def isAdcDone (i : Instr) : Bool := (adcCode i).isSome

/-- The converter's obligation on consumed events with their outputs, `n` requests being outstanding:
no ADC_DONE without an outstanding request, one ADC_DONE for each (R157). -/
def ConverterAnswers : Nat → List (Instr × List Output) → Prop
  | _, [] => True
  | n, (i, os) :: rest =>
    (isAdcDone i = true → 1 ≤ n) ∧
      ConverterAnswers (n - (if isAdcDone i then 1 else 0) + (requests os).length) rest

end Sys2Proof.Machine
end

