-- ==== Sys2Proof/Certificates/Slice0/Obligations.lean ====
section
/-! DEFINITION. Certificates/Slice0/Obligations.lean: the statements for the provers. `exec` and `step`
are the machine at `Config.params`; `execWith p` is the same machine at any parameter set (R7), where a
hypothesis could not be met by a known value of an OPEN parameter. -/

open Sys2Proof Sys2Proof.Machine

/-! Encoding and decoding (spec/30_encoding.md). -/

/-- Decoding the word of any event gives the event back, for every operand (R83, R86). -/
def Obligations.DecodeInvertsEncode : Prop := ∀ i : Instr, decode (encode i) = .ok i

/-- Each event has one word only: a word that decodes is the word of the event it decodes to (R83,
R86). -/
def Obligations.EncodeInvertsDecode : Prop :=
  ∀ (w : EventWord) (i : Instr), decode w = .ok i → encode i = w

/-- R86: the decoder on all words, each case by the word's fields. -/
def Obligations.DecoderIsTotalAndByFields : Prop :=
  ∀ w : EventWord,
    (decode w = .ok .tick ↔ w = 0x1000#16) ∧
    (decode w = .ok .hbAck ↔ w = 0x2000#16) ∧
    (∀ raw, decode w = .ok (.btnPoll raw) ↔
      w &&& 0xFFF0#16 = 0x3000#16 ∧ raw = w.extractLsb' 0 4) ∧
    (decode w = .ok .adcStart ↔ w = 0x4000#16) ∧
    (∀ r, decode w = .ok (.adcDone r) ↔ w &&& 0xFC00#16 = 0x5000#16 ∧ r = w.extractLsb' 0 10) ∧
    (decode w = .ok .selAssert ↔ w = 0x6000#16) ∧
    (decode w = .ok .selDeassert ↔ w = 0x7000#16) ∧
    (∀ ovf wcol rx, decode w = .ok (.spiByte ovf wcol rx) ↔
      w &&& 0xFC00#16 = 0x8000#16 ∧ rx = w.extractLsb' 0 8 ∧ wcol = w.getLsbD 8 ∧
        ovf = w.getLsbD 9) ∧
    (decode w = .ok .pwrPoll ↔ w = 0x9000#16) ∧
    (decode w = .error .reservedOpcode ↔ w.toNat / 4096 = 0 ∨ 10 ≤ w.toNat / 4096) ∧
    (decode w = .error .reservedBits ↔
      1 ≤ w.toNat / 4096 ∧ w.toNat / 4096 ≤ 9 ∧ ∀ row ∈ opcodeTable, row.selects w = false)

/-- R92: the encoding examples. -/
def Obligations.EncodingExamples : Prop :=
  (ScriptLine.byte 0x01 false false).words = [0x8001#16] ∧
  (ScriptLine.byte 0xA5 true true).words = [0x83A5#16] ∧
  (ScriptLine.adone 1023).words = [0x53FF#16] ∧
  (ScriptLine.poll 0b1110).words = [0x300E#16] ∧
  decode 0x8001#16 = .ok (.spiByte false false 0x01#8) ∧
  decode 0x83A5#16 = .ok (.spiByte true true 0xA5#8) ∧
  decode 0x53FF#16 = .ok (.adcDone 1023#10) ∧
  decode 0x300E#16 = .ok (.btnPoll 0b1110#4) ∧
  decode 0x0000#16 = .error .reservedOpcode ∧
  decode 0x1001#16 = .error .reservedBits ∧
  decode 0x8400#16 = .error .reservedBits

/-- R90 and R91: the operand range of each script line, the events its words decode to where the
operands are in range, and of a whole script: every word decodes to an event. That an operand out of its
range leaves the whole script without words is the model's choice (log 15): R90 says only that the
operand is an assembly error and produces no word. -/
def Obligations.AssembledWordsDecode : Prop :=
  ((∀ raw, (ScriptLine.poll raw).wf = true ↔ raw ≤ 15) ∧
    (∀ r, (ScriptLine.adone r).wf = true ↔ r ≤ 1023) ∧
    (∀ v ovf wcol, (ScriptLine.byte v ovf wcol).wf = true ↔ v ≤ 255) ∧
    (∀ v cs, (ScriptLine.frame v cs).wf = true ↔ v ≤ 255 ∧ ∀ c ∈ cs, c ≤ 255) ∧
    (∀ rs, (ScriptLine.acq rs).wf = true ↔ ∀ r ∈ rs, r ≤ 1023) ∧
    (∀ b, (ScriptLine.press b).wf = true ↔ b ≤ 3) ∧
    (∀ n, (ScriptLine.ticks n).wf = true) ∧
    ∀ x ∈ [ScriptLine.tick, .hback, .astart, .sela, .seld, .ppoll], x.wf = true) ∧
  (ScriptLine.tick.words.map decode = [.ok .tick] ∧
    ScriptLine.hback.words.map decode = [.ok .hbAck] ∧
    (∀ raw ≤ 15, (ScriptLine.poll raw).words.map decode = [.ok (.btnPoll (BitVec.ofNat 4 raw))]) ∧
    ScriptLine.astart.words.map decode = [.ok .adcStart] ∧
    (∀ r ≤ 1023, (ScriptLine.adone r).words.map decode = [.ok (.adcDone (BitVec.ofNat 10 r))]) ∧
    ScriptLine.sela.words.map decode = [.ok .selAssert] ∧
    ScriptLine.seld.words.map decode = [.ok .selDeassert] ∧
    (∀ v ≤ 255, ∀ ovf wcol, (ScriptLine.byte v ovf wcol).words.map decode =
      [.ok (.spiByte ovf wcol (BitVec.ofNat 8 v))]) ∧
    ScriptLine.ppoll.words.map decode = [.ok .pwrPoll]) ∧
  ((∀ v ≤ 255, ∀ cs : List Nat, (∀ c ∈ cs, c ≤ 255) →
      (ScriptLine.frame v cs).words.map decode =
        .ok .selAssert ::
          (v :: cs).map (fun c => .ok (.spiByte false false (BitVec.ofNat 8 c))) ++
          [.ok .selDeassert]) ∧
    (∀ rs : List Nat, (∀ r ∈ rs, r ≤ 1023) →
      (ScriptLine.acq rs).words.map decode =
        .ok .adcStart :: rs.map (fun r => .ok (.adcDone (BitVec.ofNat 10 r)))) ∧
    (∀ b ≤ 3, ∃ m : Buttons, (∀ k < 4, m.getLsbD k = decide (k ≠ b)) ∧
      (ScriptLine.press b).words.map decode =
        [.ok (.btnPoll m), .ok (.btnPoll m), .ok (.btnPoll 15), .ok (.btnPoll 15)]) ∧
    (∀ n, (ScriptLine.ticks n).words.map decode = List.replicate n (.ok .tick))) ∧
  (∀ script : Script,
    (script.wf = true →
      ∃ ws, assemble script = some ws ∧ ∀ w ∈ ws, ∃ i, decode w = .ok i) ∧
    (script.wf = false → assemble script = none))

/-! The parameters and the step (spec/00_scope.md). -/

/-- R8: a parameter set that fails a constraint has no machine, any other has one, and the machine's
own parameters satisfy the constraints whatever the OPEN values are, and have the source's defaults of
R7 and the decided values of R8. -/
def Obligations.ParameterConstraintsChecked : Prop :=
  (∀ p : Config.Params,
    (modelOf p).isSome = true ↔
      (13 ≤ p.l ∧ p.l ≤ 255) ∧ (1 ≤ p.m ∧ p.m ≤ 255) ∧ 1 ≤ p.settleN ∧
      p.adcFs = 2 ^ p.adcBits - 1 ∧ p.vOffMv ≤ p.vOnMv ∧ (1 ≤ p.lowLimit ∧ p.lowLimit ≤ 65535) ∧
      p.hbThreshold < 2 ^ p.hbWidth ∧
      (p.vCeilMv ≤ 65535 ∧ p.vrefMv ≤ 65535 ∧ p.vOffMv ≤ 65535 ∧ p.vOnMv ≤ 65535 ∧
        p.vOperMv ≤ 65535 ∧ p.dropLoMv ≤ 65535 ∧ p.dropHiMv ≤ 65535) ∧
      p.vCeilMv + max p.dropLoMv p.dropHiMv ≤ 65535) ∧
  (modelOf Config.params).isSome = true ∧
  (Config.params.l = 20 ∧ Config.params.m = 40 ∧ Config.params.settleN = 2 ∧
    Config.params.adcBits = 10 ∧ Config.params.adcFs = 1023 ∧ Config.params.sentinel = 1023 ∧
    Config.params.vCeilMv = 4500 ∧ Config.params.nb = 4 ∧ Config.params.cntMax = 255 ∧
    Config.params.lowLimit = 400 ∧ Config.params.pollPeriodMs = 25 ∧ Config.params.hbWidth = 16 ∧
    Config.params.reinitClearsSeq = false ∧ Config.params.errNone = 0x01#8)

/-- The machine is the parametric machine at its own parameters (R7). -/
def Obligations.MachineIsParametricInstance : Prop :=
  (∀ i s, exec i s = execWith Config.params i s) ∧ (∀ s, step s = stepWith Config.params s) ∧
  (∀ is s, runEvents is s = runWith Config.params is s)

/-- A step runs the decoded event: where the environment's next input delivers a word, new or held
before, that decodes to an event, `step` is `exec` of that event on the state that no longer has the
word to come (R10, R86, R301). -/
def Obligations.StepRunsDecodedEvent : Prop :=
  ∀ (s : State) (w : EventWord) (i : Instr) (rest : List Input), decode w = .ok i →
    (s.events = .word w :: rest → step s = exec i { s with events := rest }) ∧
    (∀ k, s.events = .held k :: rest → s.held[k]? = some w →
      step s = exec i { s with events := rest, held := s.held.eraseIdx k })

/-- The block waits: where nothing is delivered, no input being left or the held event named being
absent, a step changes no register and emits nothing (R291; the idle step is the model's, log 11). -/
def Obligations.StepWaitsForAnEvent : Prop :=
  ∀ s : State,
    (s.events = [] → step s = .next { s with outputs := [] }) ∧
    (∀ k rest, s.events = .held k :: rest → s.held.length ≤ k →
      step s = .next { s with events := rest, outputs := [] })

/-- R88: a word that no row of the opcode map selects is refused: no register changes, nothing is
emitted, and `REFUSED` is set. -/
def Obligations.UndefinedWordIsRefused : Prop :=
  ∀ (s : State) (w : EventWord) (rest : List Input),
    (∀ row ∈ opcodeTable, row.selects w = false) → s.events = .word w :: rest →
    step s = .next { s with events := rest, refused := true, outputs := [] }

/-- R47: `REFUSED` is set by a refused word, and nothing clears it. -/
def Obligations.RefusedMarkIsSticky : Prop :=
  ∀ s t : State, step s = .next t →
    (t.refused = true ↔
      s.refused = true ∨ ∃ w u e, s.takeInput = (.word w, u) ∧ decode w = .error e)

/-- R263: no condition stops the block, disables the receiver or changes the mode. -/
def Obligations.NoConditionStopsTheBlock : Prop :=
  (∀ s : State, ∃ t, step s = .next t) ∧ (∀ p s, ∃ t, stepWith p s = .next t) ∧
  (∀ (s : State) ovf wcol rx, ∃ t, exec (.spiByte ovf wcol rx) s = .next t ∧ t.mode = s.mode ∧
    t.spiEn = s.spiEn ∧ t.sel = s.sel)

/-! Reset (spec/70_reset_and_hazards.md). -/

/-- R290: the state after reset, and the reset input in any state: every register takes its reset
value, `REFUSED` is kept, and the outputs are those of reset. -/
def Obligations.ResetSetsEveryRegister : Prop :=
  (State.reset.AtReset Config.params ∧ State.reset.refused = false) ∧
  (∀ (s : State) (rest : List Input), s.events = .reset :: rest →
    ∃ t, step s = .next t ∧ t.AtReset Config.params ∧ t.refused = s.refused ∧ t.events = rest ∧
      t.held = s.held ∧ t.outputs = []) ∧
  (∀ t : State, t.AtReset Config.params →
    t.attn = false ∧ t.busy = false ∧ t.muxCh = .reference ∧ t.spiEn = true ∧
    t.modeOut = .active ∧ (t.hbDue Config.params = true ↔ Config.params.hbThreshold = 0))

/-! The hold (spec/70_reset_and_hazards.md). -/

/-- R300: while a frame is open every non-serial event is held: nothing changes, nothing is emitted,
and the event stays pending; serial events are never held, and no event is held otherwise. -/
def Obligations.NonSerialEventsAreHeld : Prop :=
  ∀ (s : State) (i : Instr),
    (i = .tick ∨ i = .hbAck ∨ (∃ raw, i = .btnPoll raw) ∨ i = .adcStart ∨ (∃ r, i = .adcDone r) ∨
        i = .pwrPoll →
      s.phase = .active →
      exec i s = .next { s with outputs := [], held := s.held ++ [encode i] }) ∧
    (i = .selAssert ∨ i = .selDeassert ∨ (∃ ovf wcol rx, i = .spiByte ovf wcol rx) ∨
        s.phase ≠ .active →
      ∃ t, exec i s = .next t ∧ t.held = s.held)

/-- A held event the environment delivers, whichever of those pending it chooses, is applied by its own
rule once no frame is open, and is held again while one is (R300, R301). -/
def Obligations.HeldEventsAreDeliveredInAnyOrder : Prop :=
  ∀ (s : State) (i : Instr) (k : Nat) (rest : List Input), i.isSerial = false →
    s.held[k]? = some (encode i) → s.events = .held k :: rest →
    (s.phase ≠ .active →
      step s = exec i { s with events := rest, held := s.held.eraseIdx k }) ∧
    (s.phase = .active →
      step s = .next { s with events := rest, outputs := [],
                              held := s.held.eraseIdx k ++ [encode i] })

/-- R302: a master that stops inside a frame stops the block: any number of non-serial events leaves
every register as it is, the frame still open, and every event pending. -/
def Obligations.HungMasterHoldsTheBlock : Prop :=
  ∀ (p : Config.Params) (s : State) (is : List Instr), s.phase = .active →
    (∀ i ∈ is, i.isSerial = false) →
    ∃ t, runWith p is s = some (t, []) ∧ t.regs = s.regs ∧ t.held = s.held ++ is.map encode ∧
      t.events = s.events ∧ t.draws = s.draws ∧ t.finished = false

/-! Tick source (spec/40_tick.md). -/

/-- R100 and R101: TICK increments `TB[10]` and chains the carry through `TB[9]`, `TB[8]` and `TB[7]`,
increments `HB` with wrap-around, emits nothing, and changes nothing else; `HB_DUE` is then asserted
exactly where the new count has reached the threshold (R105). -/
def Obligations.TickChainsBytesAndHeartbeat : Prop :=
  ∀ s : State, s.Shape Config.params → s.phase ≠ .active →
    ∃ t, exec .tick s = .next t ∧
      t.tbByte 10 = s.tbByte 10 + 1 ∧
      t.tbByte 9 = (if t.tbByte 10 = 0 then s.tbByte 9 + 1 else s.tbByte 9) ∧
      t.tbByte 8 = (if t.tbByte 10 = 0 ∧ t.tbByte 9 = 0 then s.tbByte 8 + 1 else s.tbByte 8) ∧
      t.tbByte 7 =
        (if t.tbByte 10 = 0 ∧ t.tbByte 9 = 0 ∧ t.tbByte 8 = 0 then s.tbByte 7 + 1
         else s.tbByte 7) ∧
      t.hb = (s.hb + 1) % 2 ^ Config.params.hbWidth ∧
      (t.hbDue Config.params = true ↔
        Config.params.hbThreshold ≤ (s.hb + 1) % 2 ^ Config.params.hbWidth) ∧
      (∀ k, k ∉ [7, 8, 9, 10] → t.tb[k]? = s.tb[k]?) ∧
      t = { s with tb := t.tb, hb := t.hb, outputs := [] }

/-- R102, the overflow-chaining law: after `n` TICK events the four bytes, read as one 32-bit number,
have advanced by `n` modulo `2^32`, no other telemetry byte has changed, and no other event writes the
four bytes. -/
def Obligations.TicksCountModuloTwoToThe32 : Prop :=
  (∀ (n : Nat) (s : State), s.Shape Config.params → s.phase ≠ .active →
    ∃ t, runEvents (List.replicate n .tick) s = some (t, []) ∧
      t.tick32.toNat = (s.tick32.toNat + n) % 2 ^ 32 ∧
      (∀ k, k ∉ [7, 8, 9, 10] → t.tb[k]? = s.tb[k]?)) ∧
  (∀ (i : Instr) (s t : State), i ≠ .tick → exec i s = .next t → t.tick32 = s.tick32)

/-- R104: HB_ACK zeroes `HB` and changes nothing else; after it `HB_DUE` is asserted only where the
threshold is 0. -/
def Obligations.HeartbeatAcknowledgeZeroes : Prop :=
  ∀ s : State, s.phase ≠ .active →
    exec .hbAck s = .next { s with hb := 0, outputs := [] } ∧
    (({ s with hb := 0, outputs := [] } : State).hbDue Config.params = true ↔
      Config.params.hbThreshold = 0)

/-! Button debounce (spec/41_debounce.md). -/

/-- R120 and R122: one poll, lane by lane, all from the state before the event; the interrupt-line
byte from the new accepted levels; nothing else changes. `ATTN` is asserted exactly where some press
counter is not zero, so an accepted press raises it (R48, R269). -/
def Obligations.ButtonPollFiltersEachLane : Prop :=
  ∀ (raw : Buttons) (s : State), s.Shape Config.params → s.phase ≠ .active →
    ∃ t, exec (.btnPoll raw) s = .next t ∧ t.ab = raw ∧
      (∀ b < 4,
        (raw.getLsbD b = s.ab.getLsbD b ∧ raw.getLsbD b ≠ s.valid.getLsbD b →
          t.valid.getLsbD b = raw.getLsbD b ∧
          (t.tbByte b).toNat =
            if raw.getLsbD b = false then
              (if (s.tbByte b).toNat < Config.params.cntMax then (s.tbByte b).toNat + 1
               else Config.params.cntMax)
            else (s.tbByte b).toNat) ∧
        (¬(raw.getLsbD b = s.ab.getLsbD b ∧ raw.getLsbD b ≠ s.valid.getLsbD b) →
          t.valid.getLsbD b = s.valid.getLsbD b ∧ t.tbByte b = s.tbByte b)) ∧
      t.tbByte 6 = (if t.valid = 0b1111#4 then 0 else 1) ∧
      (t.attn = true ↔ ∃ b < 4, t.tbByte b ≠ 0) ∧
      (∀ b < 4, raw.getLsbD b = s.ab.getLsbD b → raw.getLsbD b ≠ s.valid.getLsbD b →
        raw.getLsbD b = false → t.attn = true) ∧
      (∀ k, k ∉ [0, 1, 2, 3, 6] → t.tb[k]? = s.tb[k]?) ∧
      t = { s with tb := t.tb, ab := raw, valid := t.valid, outputs := [] }

/-- R310: a level seen on one poll only is never accepted and never counted. -/
def Obligations.OnePollGlitchIsIgnored : Prop :=
  ∀ (raw₁ raw₂ : Buttons) (s : State) (b : Nat), b < 4 → s.Shape Config.params →
    s.phase ≠ .active → raw₁.getLsbD b ≠ s.ab.getLsbD b → raw₂.getLsbD b ≠ raw₁.getLsbD b →
    ∃ t, runEvents [.btnPoll raw₁, .btnPoll raw₂] s = some (t, []) ∧
      t.valid.getLsbD b = s.valid.getLsbD b ∧ t.tbByte b = s.tbByte b

/-! ADC multiplexer, settle gate and conversions (spec/42_adc.md). -/

/-- R140 and R145: ADC_START begins an acquisition on the selected channel, or is ignored while one is
in flight. -/
def Obligations.AdcStartBeginsOrIsIgnored : Prop :=
  ∀ s : State, s.phase ≠ .active →
    (s.abusy = false →
      exec .adcStart s =
        .next { s with settle := 0, abusy := true, outputs := [.convReq s.ch] }) ∧
    (s.abusy = true → exec .adcStart s = .next { s with outputs := [] })

/-- R144: ADC_DONE with no acquisition in flight changes no register and emits nothing. -/
def Obligations.AdcDoneWhileIdleIsIgnored : Prop :=
  ∀ (s : State) (r : AdcCode), s.phase ≠ .active → s.abusy = false →
    exec (.adcDone r) s = .next { s with outputs := [] }

/-- An unsettled conversion: its code is discarded, the settle counter advances, and one more
conversion is requested on the same channel (the first branch of R142). -/
def Obligations.UnsettledConversionRestarts : Prop :=
  ∀ (s : State) (r : AdcCode), s.phase ≠ .active → s.abusy = true →
    s.settle.toNat + 1 < Config.params.settleN →
    exec (.adcDone r) s =
      .next { s with settle := s.settle + 1, outputs := [.convReq s.ch] }

/-- R149 with R146: a settled REFERENCE code that R147 rejects changes no reading, no ring entry and no
telemetry, and still ends the acquisition with the channel switched; for every parameter set, and on
the machine for the two codes that are rejected whatever `VREF_MV` is. -/
def Obligations.RejectedReferenceIsDiscarded : Prop :=
  (∀ (p : Config.Params) (s : State) (r : AdcCode), s.phase ≠ .active → s.abusy = true →
    s.ch = .reference → p.settleN ≤ s.settle.toNat + 1 →
    (r.toNat = p.sentinel ∨ r.toNat = 0 ∨ p.vCeilMv < p.adcFs * p.vrefMv / r.toNat) →
    execWith p (.adcDone r) s =
      .next { s with ch := .boardVout, settle := 0, abusy := false, outputs := [] }) ∧
  (∀ (s : State) (r : AdcCode), s.phase ≠ .active → s.abusy = true → s.ch = .reference →
    Config.params.settleN ≤ s.settle.toNat + 1 → (r = 1023#10 ∨ r = 0#10) →
    exec (.adcDone r) s =
      .next { s with ch := .boardVout, settle := 0, abusy := false, outputs := [] })

/-- R148, R170 and R172 to R175: an accepted REFERENCE sample is stored, pushed into the ring, averaged
over the valid entries and reported with its diode-drop correction, all in one step; nothing else
changes. While the ring holds accepted readings only, the telemetry value does not wrap. That the
correction is added is the spec's own reading, which R174 marks "from general knowledge, not in
source". -/
def Obligations.AcceptedReferenceUpdatesRingMeanAndTelemetry : Prop :=
  ∀ (p : Config.Params) (s : State) (r : AdcCode), p.wf = true → s.Shape p → s.RingBounds p →
    s.phase ≠ .active → s.abusy = true → s.ch = .reference → p.settleN ≤ s.settle.toNat + 1 →
    r.toNat ≠ p.sentinel → r.toNat ≠ 0 → p.adcFs * p.vrefMv / r.toNat ≤ p.vCeilMv →
    ∃ t, execWith p (.adcDone r) s = .next t ∧
      t.batLastMv.toNat = p.adcFs * p.vrefMv / r.toNat ∧
      t.ring = s.ring.set s.ridx.toNat t.batLastMv ∧
      t.ridx.toNat = (s.ridx.toNat + 1) % p.m ∧
      t.rcnt.toNat = min (s.rcnt.toNat + 1) p.m ∧
      t.batAvgMv.toNat = ((t.ring.take t.rcnt.toNat).map BitVec.toNat).sum / t.rcnt.toNat ∧
      t.batTel.toNat =
        (t.batAvgMv.toNat + (if s.voutMv.toNat < p.vOperMv then p.dropLoMv else p.dropHiMv)) %
          2 ^ 16 ∧
      (s.RingReadings p → t.RingReadings p ∧
        t.batTel.toNat =
          t.batAvgMv.toNat + (if s.voutMv.toNat < p.vOperMv then p.dropLoMv else p.dropHiMv)) ∧
      (∀ k, k ∉ [4, 5] → t.tb[k]? = s.tb[k]?) ∧
      t = { s with tb := t.tb, batLastMv := t.batLastMv, ring := t.ring, ridx := t.ridx,
                   rcnt := t.rcnt, batAvgMv := t.batAvgMv, ch := .boardVout, settle := 0,
                   abusy := false, outputs := [] }

/-- R150 with R146: a settled BOARD_VOUT code is scaled by the last supply reading, product first, and
stored unless it exceeds the ceiling; the acquisition ends with the channel switched; nothing else
changes. -/
def Obligations.BoardVoutSampleIsScaledAndStored : Prop :=
  ∀ (s : State) (r : AdcCode), s.phase ≠ .active → s.abusy = true → s.ch = .boardVout →
    Config.params.settleN ≤ s.settle.toNat + 1 →
    ∃ t, exec (.adcDone r) s = .next t ∧
      (if Config.params.vCeilMv < r.toNat * s.batLastMv.toNat / Config.params.adcFs then
        t.voutMv = s.voutMv
       else t.voutMv.toNat = r.toNat * s.batLastMv.toNat / Config.params.adcFs) ∧
      t = { s with voutMv := t.voutMv, ch := .reference, settle := 0, abusy := false,
                   outputs := [] }

/-- R151: where the last supply reading is within the ceiling, no BOARD_VOUT code is rejected, the
result is at most that reading, code 0 gives 0 and the full-scale code gives the reading itself. -/
def Obligations.BoardVoutIsNeverRejected : Prop :=
  ∀ (s : State) (r : AdcCode), s.phase ≠ .active → s.abusy = true → s.ch = .boardVout →
    Config.params.settleN ≤ s.settle.toNat + 1 → s.ReadingBounds Config.params →
    ∃ t, exec (.adcDone r) s = .next t ∧
      t.voutMv.toNat = r.toNat * s.batLastMv.toNat / Config.params.adcFs ∧
      t.voutMv.toNat ≤ s.batLastMv.toNat ∧ s.batLastMv.toNat ≤ Config.params.vCeilMv ∧
      (r = 0#10 → t.voutMv = 0) ∧ (r.toNat = Config.params.adcFs → t.voutMv = s.batLastMv)

/-- R143, the settle-gate law, for every settle count the 8-bit counter can reach: after an accepted
ADC_START the first `SETTLE_N - 1` codes are discarded, each requesting one more conversion on the same
channel, and the `SETTLE_N`-th is processed and ends the acquisition: its code is what `processSample`
makes of it, which the statements on REFERENCE and BOARD_VOUT codes fix. -/
def Obligations.SettleGateDiscardsThenProcesses : Prop :=
  ∀ (p : Config.Params) (s : State) (rs : List AdcCode) (r : AdcCode), p.settleN ≤ 256 →
    s.phase ≠ .active → s.abusy = false → rs.length + 1 = p.settleN →
    ∃ t u, runWith p (.adcStart :: rs.map .adcDone) s =
        some (t, List.replicate p.settleN (.convReq s.ch)) ∧
      t.regs = { s.regs with abusy := true, settle := BitVec.ofNat 8 rs.length } ∧
      execWith p (.adcDone r) t = .next u ∧
      u = (processSample p r t.quiet).endAcquisition ∧ u.abusy = false ∧ u.settle = 0 ∧
      u.ch = (match s.ch with | .reference => .boardVout | .boardVout => .reference) ∧
      u.outputs = []

/-- R141: a conversion request always names the channel the multiplexer selects, and the multiplexer
changes only when an ADC_DONE ends an acquisition. -/
def Obligations.RequestsNameTheSelectedChannel : Prop :=
  ∀ (i : Instr) (s t : State), exec i s = .next t →
    (∀ ch ∈ requests t.outputs, ch = s.muxCh ∧ ch = t.muxCh) ∧
    (t.muxCh ≠ s.muxCh →
      (∃ r, i = .adcDone r) ∧ s.abusy = true ∧ t.abusy = false ∧ requests t.outputs = [])

/-- The block's own half of the converter's contract (R33, R140, R142): counting the requests emitted
and the results consumed, exactly one request is outstanding while `ABUSY` is set and none otherwise,
whatever the event, as long as no ADC_DONE comes unasked. -/
def Obligations.OneRequestOutstandingWhileBusy : Prop :=
  ∀ (i : Instr) (s t : State), exec i s = .next t → (isAdcDone i = true → s.abusy = true) →
    (requests t.outputs).length + (if s.abusy then 1 else 0) =
      (if t.abusy then 1 else 0) + (if isAdcDone i = true ∧ s.phase ≠ .active then 1 else 0)

/-- R154: the analog part never writes `ERR` and never emits `ERR_EVT`, in either branch and whatever
the code. -/
def Obligations.AnalogPartNeverReportsErrors : Prop :=
  ∀ (s : State) (i : Instr), (i = .adcStart ∨ ∃ r, i = .adcDone r) →
    ∃ t, exec i s = .next t ∧ t.err Config.params = s.err Config.params ∧ .errEvt ∉ t.outputs ∧
      replyBytes t.outputs = []

/-- R155: the power mode has no effect on ADC_START and ADC_DONE: two states that differ in the mode
only still do after the event; and no PWR_POLL, whatever it decides, changes the acquisition state. -/
def Obligations.PowerModeDoesNotReachAnalogPart : Prop :=
  (∀ (s : State) (m : PowerMode) (i : Instr), (i = .adcStart ∨ ∃ r, i = .adcDone r) →
    ∃ t, exec i s = .next t ∧ exec i { s with mode := m } = .next { t with mode := m } ∧
      t.mode = s.mode) ∧
  (∀ s : State, ∃ t, exec .pwrPoll s = .next t ∧ t.ch = s.ch ∧ t.settle = s.settle ∧
    t.abusy = s.abusy)

/-- R176 and R177, for every parameter set and every run of events from a state with an empty ring:
the mean is the floor of the exact mean of the accepted readings, or of the `M` latest of them once
there are more; with none accepted it is as it was. -/
def Obligations.MeanIsExactOverLatestReadings : Prop :=
  ∀ (p : Config.Params) (s t : State) (is : List Instr) (os : List Output), p.wf = true →
    s.Shape p → s.rcnt = 0 → s.ridx = 0 → runWith p is s = some (t, os) →
    (acceptedReadings p is s = [] → t.batAvgMv = s.batAvgMv ∧ t.batTel = s.batTel ∧ t.rcnt = 0) ∧
    (acceptedReadings p is s ≠ [] →
      t.batAvgMv.toNat =
        ((acceptedReadings p is s).drop ((acceptedReadings p is s).length - p.m)).sum /
          min (acceptedReadings p is s).length p.m)

/-! Serial receiver (spec/44_serial.md). -/

/-- R190: SEL_ASSERT is ignored while select is asserted; otherwise it tracks select and, in ACTIVE
mode, opens a frame with the reply snapshot of R191; in LOW_POWER no frame opens. -/
def Obligations.SelectAssertOpensAFrame : Prop :=
  ∀ s : State, s.Shape Config.params →
    (s.sel = true → exec .selAssert s = .next { s with outputs := [] }) ∧
    (s.sel = false → s.mode = .lowPower →
      exec .selAssert s = .next { s with sel := true, outputs := [] }) ∧
    (s.sel = false → s.mode = .active →
      ∃ t, exec .selAssert s = .next t ∧
        (∀ k < Config.params.l - 1, t.txbuf[k]? = s.tb[k]?) ∧
        t.txbuf[Config.params.l - 1]? = s.txbuf[Config.params.l - 1]? ∧
        t.txbuf.length = Config.params.l ∧ t.busy = true ∧
        t = { s with sel := true, phase := .active, pos := 0, txcorrupt := false,
                     txbuf := t.txbuf, outputs := [] })

/-- R193: SEL_DEASSERT ends whatever frame there is, without completion effects, or is ignored. -/
def Obligations.SelectDeassertEndsTheFrame : Prop :=
  ∀ s : State,
    (s.sel = true →
      exec .selDeassert s = .next { s with sel := false, phase := .idle, outputs := [] }) ∧
    (s.sel = false → exec .selDeassert s = .next { s with outputs := [] })

/-- R207: an SPI_BYTE with no frame changes no register, records no flag and replies a free draw. -/
def Obligations.ByteOutsideAFrameIsIgnored : Prop :=
  ∀ (s : State) (ovf wcol : Bool) (rx : Byte), s.phase = .idle →
    exec (.spiByte ovf wcol rx) s =
      .next { s with outputs := [.miso (Config.any8 s.draws)], draws := s.draws + 1 }

/-- R195 in an open frame before its last byte, with R196 to R200, R203 and R206: the reply, the store,
the position, the sequence id at position 0, the recorded errors and the strobe; nothing else
changes. -/
def Obligations.ByteInsideAFrame : Prop :=
  ∀ (s : State) (ovf wcol : Bool) (rx : Byte), s.Shape Config.params → s.phase = .active →
    s.pos.toNat + 1 < Config.params.l →
    let e : Byte := (if ovf then 0x02 else 0) ||| (if wcol then 0x04 else 0) |||
      (if s.pos = 0 ∧ rx ≠ 0 ∧ rx ≠ s.seq then 0x10 else 0)
    ∃ t, exec (.spiByte ovf wcol rx) s = .next t ∧
      t.outputs =
        .miso (if s.txcorrupt then Config.any8 s.draws else s.txbuf.getD s.pos.toNat 0) ::
          (if e = 0 then [] else [.errEvt]) ∧
      t.draws = (if s.txcorrupt then s.draws + 1 else s.draws) ∧
      t.cmd = s.cmd.set s.pos.toNat rx ∧ t.pos = s.pos + 1 ∧
      t.seq = (if s.pos = 0 then rx + 1 else s.seq) ∧
      t.txbuf = (if s.pos = 0 then s.txbuf.set (Config.params.l - 1) (rx + 1) else s.txbuf) ∧
      t.err Config.params = s.err Config.params ||| e ∧
      (∀ k, k ≠ Config.params.l - 2 → t.tb[k]? = s.tb[k]?) ∧
      t = { s with tb := t.tb, cmd := t.cmd, pos := t.pos, seq := t.seq, txbuf := t.txbuf,
                   txcorrupt := wcol, outputs := t.outputs, draws := t.draws }

/-- R204 and R205 with R195: the `L`-th byte of a frame. The reply and the strobe are as for any byte
of the frame; the error byte becomes `ERR_NONE` where the declared id is 1, even over errors of this
same byte, and accumulates them otherwise; the four press counters become 0; the frame is DONE. -/
def Obligations.LastByteCompletesTheFrame : Prop :=
  ∀ (s : State) (ovf wcol : Bool) (rx : Byte), s.Shape Config.params → s.phase = .active →
    s.pos.toNat + 1 = Config.params.l →
    let e : Byte := (if ovf then 0x02 else 0) ||| (if wcol then 0x04 else 0)
    ∃ t, exec (.spiByte ovf wcol rx) s = .next t ∧
      t.outputs =
        .miso (if s.txcorrupt then Config.any8 s.draws else s.txbuf.getD s.pos.toNat 0) ::
          (if e = 0 then [] else [.errEvt]) ∧
      t.draws = (if s.txcorrupt then s.draws + 1 else s.draws) ∧
      t.cmd = s.cmd.set s.pos.toNat rx ∧ t.pos.toNat = Config.params.l ∧
      t.err Config.params =
        (if s.cmd[0]? = some 1 then Config.params.errNone else s.err Config.params ||| e) ∧
      (∀ k < 4, t.tbByte k = 0) ∧ t.attn = false ∧ t.busy = false ∧
      (∀ k, 4 ≤ k → k ≠ Config.params.l - 2 → t.tb[k]? = s.tb[k]?) ∧
      t = { s with tb := t.tb, cmd := t.cmd, pos := t.pos, phase := .done, txcorrupt := wcol,
                   outputs := t.outputs, draws := t.draws }

/-- R202: a byte after the frame's `L`-th raises OUT_OF_INDEX, aborts the frame, is stored nowhere and
leaves the position; the reply is a free draw; other conditions of the byte are recorded too. -/
def Obligations.ByteAfterTheFrameIsOutOfIndex : Prop :=
  ∀ (s : State) (ovf wcol : Bool) (rx : Byte), s.Shape Config.params →
    (s.phase = .done ∨ s.phase = .aborted) →
    ∃ t, exec (.spiByte ovf wcol rx) s = .next t ∧
      t.err Config.params = s.err Config.params ||| 0x08 |||
        (if ovf then 0x02 else 0) ||| (if wcol then 0x04 else 0) ∧
      (∀ k, k ≠ Config.params.l - 2 → t.tb[k]? = s.tb[k]?) ∧
      t = { s with tb := t.tb, phase := .aborted, txcorrupt := wcol, draws := s.draws + 1,
                   outputs := [.miso (Config.any8 s.draws), .errEvt] }

/-- R201: the acknowledgement is always the declared id plus one; SEQ_MISMATCH is raised exactly for a
non-zero id other than `SEQ`; a master that sends the last acknowledgement never mismatches. -/
def Obligations.SequenceIdLaws : Prop :=
  ∀ (s : State) (ovf wcol : Bool) (rx : Byte), s.Shape Config.params → s.phase = .active →
    s.pos = 0 →
    ∃ t, exec (.spiByte ovf wcol rx) s = .next t ∧
      t.seq = rx + 1 ∧ t.txbuf[Config.params.l - 1]? = some (rx + 1) ∧
      ((s.err Config.params).getLsbD 4 = false →
        ((t.err Config.params).getLsbD 4 = true ↔ rx ≠ 0 ∧ rx ≠ s.seq)) ∧
      (rx = s.seq → (t.err Config.params).getLsbD 4 = (s.err Config.params).getLsbD 4)

/-- R206: `ERR_EVT` is emitted exactly once by every SPI_BYTE that raises a condition, even where the
bit was set already or the clear rule clears it in the same step, and by nothing else. -/
def Obligations.ErrorStrobePerFaultyByte : Prop :=
  (∀ (s : State) (ovf wcol : Bool) (rx : Byte), ∃ t, exec (.spiByte ovf wcol rx) s = .next t ∧
    t.outputs.count .errEvt =
      if s.phase ≠ .idle ∧ (ovf = true ∨ wcol = true ∨ s.phase ≠ .active ∨
          (s.pos = 0 ∧ rx ≠ 0 ∧ rx ≠ s.seq)) then 1 else 0) ∧
  (∀ (s t : State) (i : Instr), exec i s = .next t → .errEvt ∈ t.outputs →
    ∃ ovf wcol rx, i = .spiByte ovf wcol rx)

/-- R212: a sticky error bit that a step clears was cleared by the `L`-th byte of a frame with declared
id 1, by a wake from LOW_POWER, or by the reset input; nothing else clears one. -/
def Obligations.OnlyThreeClearsOfErrors : Prop :=
  ∀ (s t : State) (b : Nat), 1 ≤ b → b ≤ 4 → s.Shape Config.params → step s = .next t →
    (s.err Config.params).getLsbD b = true → (t.err Config.params).getLsbD b = false →
    (∃ w u ovf wcol rx, s.takeInput = (.word w, u) ∧ decode w = .ok (.spiByte ovf wcol rx) ∧
      s.phase = .active ∧ s.pos.toNat + 1 = Config.params.l ∧ s.cmd[0]? = some 1 ∧
      t.err Config.params = Config.params.errNone) ∨
    (∃ w u, s.takeInput = (.word w, u) ∧ decode w = .ok .pwrPoll ∧ s.mode = .lowPower ∧
      t.mode = .active ∧ t.err Config.params = Config.params.errNone) ∨
    (∃ u, s.takeInput = (.reset, u) ∧ t.AtReset Config.params)

/-- R210, the full-frame law, for every parameter set: a frame of exactly `L` bytes without a write
collision, opened in ACTIVE mode, replies the telemetry image as it stood at SEL_ASSERT and then the
declared id plus one; after it the press counters are 0, the error byte is `ERR_NONE` where the id is
1, and the command store holds the frame. -/
def Obligations.FullFrameRepliesTheSnapshot : Prop :=
  ∀ (p : Config.Params) (s : State) (ovf₀ : Bool) (id : Byte) (rest : List (Bool × Byte)),
    p.wf = true → s.Shape p → s.sel = false → s.mode = .active → rest.length + 1 = p.l →
    ∃ t os,
      runWith p (frameOf ((ovf₀, false, id) :: rest.map fun b => (b.1, false, b.2))) s =
        some (t, os) ∧
      replyBytes os = s.tb ++ [id + 1] ∧ (∀ k < 4, t.tbByte k = 0) ∧
      (id = 1 → t.err p = p.errNone) ∧ t.cmd = id :: rest.map (fun b => b.2) ∧ t.seq = id + 1 ∧
      t.phase = .idle ∧ t.sel = false ∧
      (∀ k, 4 ≤ k → k ≠ p.l - 2 → t.tb[k]? = s.tb[k]?)

/-- R194, for every parameter set: a frame that ends before its `L`-th byte keeps every effect of its
bytes, the sequence increment included, and gets no completion effect: the press counters stand and no
error bit is cleared. A frame of no byte changes no register a byte would have written. -/
def Obligations.IncompleteFrameKeepsItsEffects : Prop :=
  ∀ (p : Config.Params) (s : State),
    p.wf = true → s.Shape p → s.sel = false → s.mode = .active →
    (∃ t, runWith p (frameOf []) s = some (t, []) ∧ t.seq = s.seq ∧ t.cmd = s.cmd ∧ t.tb = s.tb ∧
      t.txbuf[p.l - 1]? = s.txbuf[p.l - 1]? ∧ t.phase = .idle ∧ t.sel = false) ∧
    (∀ (id : Bool × Bool × Byte) (rest : List (Bool × Bool × Byte)), rest.length + 1 < p.l →
      ∃ t os, runWith p (frameOf (id :: rest)) s = some (t, os) ∧
        t.seq = id.2.2 + 1 ∧ t.txbuf[p.l - 1]? = some (id.2.2 + 1) ∧
        t.cmd = (id :: rest).map (fun b => b.2.2) ++ s.cmd.drop (rest.length + 1) ∧
        t.pos.toNat = rest.length + 1 ∧
        t.err p = s.err p |||
          (if (id :: rest).any (fun b => b.1) then 0x02 else 0) |||
          (if (id :: rest).any (fun b => b.2.1) then 0x04 else 0) |||
          (if id.2.2 ≠ 0 ∧ id.2.2 ≠ s.seq then 0x10 else 0) ∧
        (∀ k, k ≠ p.l - 2 → t.tb[k]? = s.tb[k]?) ∧ t.phase = .idle ∧ t.sel = false)

/-- R295: the first full frame after reset, with declared id `id`, replies `L - 2` zero bytes, then
`ERR_NONE`, then the id plus one. -/
def Obligations.FirstReplyAfterReset : Prop :=
  ∀ (id : Byte) (rest : List Byte), rest.length + 1 = Config.params.l →
    ∃ t os,
      runEvents (frameOf ((false, false, id) :: rest.map fun b => (false, false, b)))
        State.reset = some (t, os) ∧
      replyBytes os =
        List.replicate (Config.params.l - 2) 0 ++ [Config.params.errNone, id + 1]

/-! Power-mode comparator (spec/45_power.md). -/

/-- R240 with R241, R243 and R244, for every parameter set: one PWR_POLL. The low count, then the entry
into LOW_POWER, the wake, or neither; nothing else changes. `SPI_EN` and `MODE_OUT` follow the mode
(R48, R208). -/
def Obligations.PowerPollDecidesTheMode : Prop :=
  ∀ (p : Config.Params) (s : State), p.wf = true → s.Shape p → s.phase ≠ .active →
    let c : Nat := if s.voutMv.toNat < p.vOffMv then min (s.lowcnt.toNat + 1) p.lowLimit else 0
    ∃ t, execWith p .pwrPoll s = .next t ∧ t.lowcnt.toNat = c ∧ t.outputs = [] ∧
      (if s.mode = .active ∧ c = p.lowLimit then
        t = { s with lowcnt := t.lowcnt, mode := .lowPower, phase := .idle, outputs := [] } ∧
          t.spiEn = false ∧ t.modeOut = .lowPower
       else if s.mode = .lowPower ∧ p.vOnMv ≤ s.voutMv.toNat then
        t.err p = p.errNone ∧ (∀ k, k ≠ p.l - 2 → t.tb[k]? = s.tb[k]?) ∧
        t = { s with tb := t.tb, lowcnt := t.lowcnt, mode := .active, phase := .idle,
                     txcorrupt := false, seq := (if p.reinitClearsSeq then 0 else s.seq),
                     outputs := [] } ∧
          t.spiEn = true ∧ t.modeOut = .active
       else t = { s with lowcnt := t.lowcnt, outputs := [] })

/-- A PWR_POLL in ACTIVE mode that is not low zeroes the low count and changes nothing else (R240,
R241). -/
def Obligations.NonLowPollZeroesTheCount : Prop :=
  ∀ s : State, s.phase ≠ .active → s.mode = .active → Config.params.vOffMv ≤ s.voutMv.toNat →
    exec .pwrPoll s = .next { s with lowcnt := 0, outputs := [] }

/-- R245: in LOW_POWER a poll wakes the block exactly when the stored reading is at least `V_ON_MV`,
and a wake poll is never low, so it zeroes the low count; the sequence id is kept. -/
def Obligations.WakePollIsNeverLow : Prop :=
  ∀ s : State, s.Shape Config.params → s.phase ≠ .active → s.mode = .lowPower →
    ∃ t, exec .pwrPoll s = .next t ∧
      (t.mode = .active ↔ Config.params.vOnMv ≤ s.voutMv.toNat) ∧
      (t.mode = .active → t.lowcnt = 0 ∧ t.err Config.params = Config.params.errNone ∧
        t.seq = s.seq ∧ t.phase = .idle ∧ t.spiEn = true)

/-- R242, the entry law, for every parameter set: from ACTIVE with no low poll counted, low polls in a
row enter LOW_POWER at the `LOW_LIMIT`-th and never earlier. -/
def Obligations.LowPowerEntryAtTheLimit : Prop :=
  ∀ (p : Config.Params) (s : State) (n : Nat), p.wf = true → s.phase ≠ .active →
    s.mode = .active → s.lowcnt = 0 → s.voutMv.toNat < p.vOffMv → n ≤ p.lowLimit →
    ∃ t, runWith p (List.replicate n .pwrPoll) s = some (t, []) ∧ t.lowcnt.toNat = n ∧
      (t.mode = .lowPower ↔ n = p.lowLimit)

/-! Whole-machine rules (spec/10_state.md). -/

/-- R50: each register is written only by the events named in its row of R20, and each part of the
telemetry image only by the writers of R21. -/
def Obligations.RegistersHaveTheirWritersOnly : Prop :=
  ∀ (i : Instr) (s t : State), s.Shape Config.params → exec i s = .next t →
    (t.hb ≠ s.hb → i = .tick ∨ i = .hbAck) ∧
    (t.ab ≠ s.ab ∨ t.valid ≠ s.valid → ∃ raw, i = .btnPoll raw) ∧
    (t.settle ≠ s.settle ∨ t.abusy ≠ s.abusy → i = .adcStart ∨ ∃ r, i = .adcDone r) ∧
    (t.ch ≠ s.ch ∨ t.batLastMv ≠ s.batLastMv ∨ t.voutMv ≠ s.voutMv ∨ t.batAvgMv ≠ s.batAvgMv ∨
      t.ring ≠ s.ring ∨ t.ridx ≠ s.ridx ∨ t.rcnt ≠ s.rcnt → ∃ r, i = .adcDone r) ∧
    (t.sel ≠ s.sel → i = .selAssert ∨ i = .selDeassert) ∧
    (t.phase ≠ s.phase → i = .selAssert ∨ i = .selDeassert ∨
      (∃ ovf wcol rx, i = .spiByte ovf wcol rx) ∨ i = .pwrPoll) ∧
    (t.pos ≠ s.pos ∨ t.txbuf ≠ s.txbuf →
      i = .selAssert ∨ ∃ ovf wcol rx, i = .spiByte ovf wcol rx) ∧
    (t.seq ≠ s.seq → (∃ ovf wcol rx, i = .spiByte ovf wcol rx) ∨
      (i = .pwrPoll ∧ Config.params.reinitClearsSeq = true)) ∧
    (t.cmd ≠ s.cmd → ∃ ovf wcol rx, i = .spiByte ovf wcol rx) ∧
    (t.txcorrupt ≠ s.txcorrupt →
      i = .selAssert ∨ (∃ ovf wcol rx, i = .spiByte ovf wcol rx) ∨ i = .pwrPoll) ∧
    (t.mode ≠ s.mode ∨ t.lowcnt ≠ s.lowcnt → i = .pwrPoll) ∧ t.refused = s.refused ∧
    (∀ k, t.tb[k]? ≠ s.tb[k]? →
      (k < 4 ∧ ((∃ raw, i = .btnPoll raw) ∨ ∃ ovf wcol rx, i = .spiByte ovf wcol rx)) ∨
      ((k = 4 ∨ k = 5) ∧ ∃ r, i = .adcDone r) ∨
      (k = 6 ∧ ∃ raw, i = .btnPoll raw) ∨
      (7 ≤ k ∧ k ≤ 10 ∧ i = .tick) ∨
      (k = Config.params.l - 2 ∧
        ((∃ ovf wcol rx, i = .spiByte ovf wcol rx) ∨ i = .pwrPoll)))

/-- R52: the invariants hold after every step from any state in which they hold. -/
def Obligations.StepKeepsTheInvariants : Prop :=
  ∀ s t : State, s.Inv Config.params → step s = .next t → t.Inv Config.params

/-- R52: the invariants hold at reset. -/
def Obligations.InvariantsHoldAtReset : Prop := State.reset.Inv Config.params

/-- R52 for every admissible parameter set whose `ERR_NONE` has bit 0 set and bits 7:5 clear, which
clause (d) needs: the invariants hold at reset and after every step. -/
def Obligations.EveryParameterSetKeepsTheInvariants : Prop :=
  ∀ p : Config.Params, p.wf = true → p.errNone &&& 0xE1#8 = 0x01#8 →
    (State.resetWith p).Inv p ∧ ∀ s t : State, s.Inv p → stepWith p s = .next t → t.Inv p

/-- R37: the ring's counters stay in range and the write index follows the fill count until the ring
is full, from reset and through every step. -/
def Obligations.RingFillsInOrder : Prop :=
  State.reset.RingFilling Config.params ∧
  ∀ s t : State, s.RingFilling Config.params → step s = .next t → t.RingFilling Config.params

/-! Scripts (spec/30_encoding.md). -/

/-- A script assembles line by line, and a `REPEAT` to copies of the enclosed lines (R90, R91). That an
operand out of its range leaves the whole script without words is the model's choice (log 15): R90 says
only that the operand is an assembly error and produces no word. -/
def Obligations.ScriptsAssembleLineByLine : Prop :=
  assemble .done = some [] ∧
  (∀ x rest ws, assemble (.line x rest) = some ws ↔
    x.wf = true ∧ ∃ tail, assemble rest = some tail ∧ ws = x.words ++ tail) ∧
  (∀ n body rest ws, assemble (.rep n body rest) = some ws ↔
    ∃ b tail, assemble body = some b ∧ assemble rest = some tail ∧
      ws = (List.replicate n b).flatten ++ tail)
end

