-- ==== Sys2Proof/Laws/Config.lean ====
section
/-! SUPPORT. Laws/Config.lean: the check of R8 as a proposition, and that the machine's own parameters
pass it whatever the OPEN values are. -/

namespace Sys2Proof.Config

/-- The check of R8, constraint by constraint. -/
theorem Params.wf_iff (p : Params) :
    p.wf = true ↔
      (13 ≤ p.l ∧ p.l ≤ 255) ∧ (1 ≤ p.m ∧ p.m ≤ 255) ∧ 1 ≤ p.settleN ∧
      p.adcFs = 2 ^ p.adcBits - 1 ∧ (1 ≤ p.lowLimit ∧ p.lowLimit ≤ 65535) ∧
      p.hbThreshold < 2 ^ p.hbWidth ∧
      (p.vCeilMv ≤ 65535 ∧ p.vrefMv ≤ 65535 ∧ p.vOffMv ≤ 65535 ∧ p.vOnMv ≤ 65535 ∧
        p.vOperMv ≤ 65535 ∧ p.dropLoMv ≤ 65535 ∧ p.dropHiMv ≤ 65535) ∧
      p.vOffMv ≤ p.vOnMv ∧ p.vCeilMv + max p.dropLoMv p.dropHiMv ≤ 65535 := by
  simp only [Params.wf, Params.sizesOk, Params.millivoltsOk, Bool.and_eq_true, decide_eq_true_eq,
    beq_iff_eq]
  constructor <;> intro h <;> simp only [h, and_self]

/-- The parameters of the machine pass the check. -/
theorem params_wf : params.wf = true := by
  rw [Params.wf_iff]
  have h₁ := hbThreshold.isLt
  have h₂ := vrefMv.isLt
  have h₃ := vOffMv.isLt
  have h₄ := vOnRawMv.isLt
  have h₅ := vOperMv.isLt
  simp only [params]
  omega

/-! The values of the parameters the machine fixes (R7, R8), by name. -/

@[simp] theorem params_l : params.l = 20 := rfl
@[simp] theorem params_m : params.m = 40 := rfl
@[simp] theorem params_settleN : params.settleN = 2 := rfl
@[simp] theorem params_adcFs : params.adcFs = 1023 := rfl
@[simp] theorem params_sentinel : params.sentinel = 1023 := rfl
@[simp] theorem params_vCeilMv : params.vCeilMv = 4500 := rfl
@[simp] theorem params_cntMax : params.cntMax = 255 := rfl
@[simp] theorem params_lowLimit : params.lowLimit = 400 := rfl
@[simp] theorem params_hbWidth : params.hbWidth = 16 := rfl
@[simp] theorem params_errNone : params.errNone = 0x01#8 := rfl
@[simp] theorem params_reinitClearsSeq : params.reinitClearsSeq = false := rfl

end Sys2Proof.Config
end

