-- ==== Sys2Proof/Laws/State.lean ====
section
/-! SUPPORT. Laws/State.lean: one lemma per register and update, each true by unfolding, so that no
proof unfolds a record update. Updates of the telemetry image alone are first put in terms of
`writeTb`. -/

namespace Sys2Proof.Machine

variable (s : State)

/-! Updates of the telemetry image alone, by `writeTb`. -/

@[simp] theorem State.setErr_eq (p : Config.Params) (v : Byte) : s.setErr p v = s.writeTb (p.l - 2) v := rfl
@[simp] theorem State.clearErr_eq (p : Config.Params) : s.clearErr p = s.writeTb (p.l - 2) p.errNone := rfl
@[simp] theorem State.recordErr_eq (p : Config.Params) (m : Byte) : s.recordErr p m = s.writeTb (p.l - 2) (s.err p ||| m) := rfl
@[simp] theorem State.incTb_eq (k : Nat) : s.incTb k = s.writeTb k (s.tbByte k + 1) := rfl
@[simp] theorem State.writeBatTel_eq (v : Millivolts) : s.writeBatTel v = (s.writeTb 4 (v.extractLsb' 8 8)).writeTb 5 (v.extractLsb' 0 8) := rfl
@[simp] theorem State.clearCounters_eq : s.clearCounters = (((s.writeTb 0 0).writeTb 1 0).writeTb 2 0).writeTb 3 0 := rfl

/-! `quiet`. -/

@[simp] theorem State.quiet_tb : s.quiet.tb = s.tb := rfl
@[simp] theorem State.quiet_hb : s.quiet.hb = s.hb := rfl
@[simp] theorem State.quiet_ab : s.quiet.ab = s.ab := rfl
@[simp] theorem State.quiet_valid : s.quiet.valid = s.valid := rfl
@[simp] theorem State.quiet_ch : s.quiet.ch = s.ch := rfl
@[simp] theorem State.quiet_settle : s.quiet.settle = s.settle := rfl
@[simp] theorem State.quiet_abusy : s.quiet.abusy = s.abusy := rfl
@[simp] theorem State.quiet_batLastMv : s.quiet.batLastMv = s.batLastMv := rfl
@[simp] theorem State.quiet_voutMv : s.quiet.voutMv = s.voutMv := rfl
@[simp] theorem State.quiet_batAvgMv : s.quiet.batAvgMv = s.batAvgMv := rfl
@[simp] theorem State.quiet_ring : s.quiet.ring = s.ring := rfl
@[simp] theorem State.quiet_ridx : s.quiet.ridx = s.ridx := rfl
@[simp] theorem State.quiet_rcnt : s.quiet.rcnt = s.rcnt := rfl
@[simp] theorem State.quiet_sel : s.quiet.sel = s.sel := rfl
@[simp] theorem State.quiet_phase : s.quiet.phase = s.phase := rfl
@[simp] theorem State.quiet_pos : s.quiet.pos = s.pos := rfl
@[simp] theorem State.quiet_seq : s.quiet.seq = s.seq := rfl
@[simp] theorem State.quiet_txbuf : s.quiet.txbuf = s.txbuf := rfl
@[simp] theorem State.quiet_cmd : s.quiet.cmd = s.cmd := rfl
@[simp] theorem State.quiet_txcorrupt : s.quiet.txcorrupt = s.txcorrupt := rfl
@[simp] theorem State.quiet_mode : s.quiet.mode = s.mode := rfl
@[simp] theorem State.quiet_lowcnt : s.quiet.lowcnt = s.lowcnt := rfl
@[simp] theorem State.quiet_refused : s.quiet.refused = s.refused := rfl
@[simp] theorem State.quiet_outputs : s.quiet.outputs = [] := rfl
@[simp] theorem State.quiet_events : s.quiet.events = s.events := rfl
@[simp] theorem State.quiet_held : s.quiet.held = s.held := rfl
@[simp] theorem State.quiet_draws : s.quiet.draws = s.draws := rfl

/-! `emit`. -/

@[simp] theorem State.emit_tb (o : Output) : (s.emit o).tb = s.tb := rfl
@[simp] theorem State.emit_hb (o : Output) : (s.emit o).hb = s.hb := rfl
@[simp] theorem State.emit_ab (o : Output) : (s.emit o).ab = s.ab := rfl
@[simp] theorem State.emit_valid (o : Output) : (s.emit o).valid = s.valid := rfl
@[simp] theorem State.emit_ch (o : Output) : (s.emit o).ch = s.ch := rfl
@[simp] theorem State.emit_settle (o : Output) : (s.emit o).settle = s.settle := rfl
@[simp] theorem State.emit_abusy (o : Output) : (s.emit o).abusy = s.abusy := rfl
@[simp] theorem State.emit_batLastMv (o : Output) : (s.emit o).batLastMv = s.batLastMv := rfl
@[simp] theorem State.emit_voutMv (o : Output) : (s.emit o).voutMv = s.voutMv := rfl
@[simp] theorem State.emit_batAvgMv (o : Output) : (s.emit o).batAvgMv = s.batAvgMv := rfl
@[simp] theorem State.emit_ring (o : Output) : (s.emit o).ring = s.ring := rfl
@[simp] theorem State.emit_ridx (o : Output) : (s.emit o).ridx = s.ridx := rfl
@[simp] theorem State.emit_rcnt (o : Output) : (s.emit o).rcnt = s.rcnt := rfl
@[simp] theorem State.emit_sel (o : Output) : (s.emit o).sel = s.sel := rfl
@[simp] theorem State.emit_phase (o : Output) : (s.emit o).phase = s.phase := rfl
@[simp] theorem State.emit_pos (o : Output) : (s.emit o).pos = s.pos := rfl
@[simp] theorem State.emit_seq (o : Output) : (s.emit o).seq = s.seq := rfl
@[simp] theorem State.emit_txbuf (o : Output) : (s.emit o).txbuf = s.txbuf := rfl
@[simp] theorem State.emit_cmd (o : Output) : (s.emit o).cmd = s.cmd := rfl
@[simp] theorem State.emit_txcorrupt (o : Output) : (s.emit o).txcorrupt = s.txcorrupt := rfl
@[simp] theorem State.emit_mode (o : Output) : (s.emit o).mode = s.mode := rfl
@[simp] theorem State.emit_lowcnt (o : Output) : (s.emit o).lowcnt = s.lowcnt := rfl
@[simp] theorem State.emit_refused (o : Output) : (s.emit o).refused = s.refused := rfl
@[simp] theorem State.emit_outputs (o : Output) : (s.emit o).outputs = s.outputs ++ [o] := rfl
@[simp] theorem State.emit_events (o : Output) : (s.emit o).events = s.events := rfl
@[simp] theorem State.emit_held (o : Output) : (s.emit o).held = s.held := rfl
@[simp] theorem State.emit_draws (o : Output) : (s.emit o).draws = s.draws := rfl

/-! `emitDraw`. -/

@[simp] theorem State.emitDraw_tb : s.emitDraw.tb = s.tb := rfl
@[simp] theorem State.emitDraw_hb : s.emitDraw.hb = s.hb := rfl
@[simp] theorem State.emitDraw_ab : s.emitDraw.ab = s.ab := rfl
@[simp] theorem State.emitDraw_valid : s.emitDraw.valid = s.valid := rfl
@[simp] theorem State.emitDraw_ch : s.emitDraw.ch = s.ch := rfl
@[simp] theorem State.emitDraw_settle : s.emitDraw.settle = s.settle := rfl
@[simp] theorem State.emitDraw_abusy : s.emitDraw.abusy = s.abusy := rfl
@[simp] theorem State.emitDraw_batLastMv : s.emitDraw.batLastMv = s.batLastMv := rfl
@[simp] theorem State.emitDraw_voutMv : s.emitDraw.voutMv = s.voutMv := rfl
@[simp] theorem State.emitDraw_batAvgMv : s.emitDraw.batAvgMv = s.batAvgMv := rfl
@[simp] theorem State.emitDraw_ring : s.emitDraw.ring = s.ring := rfl
@[simp] theorem State.emitDraw_ridx : s.emitDraw.ridx = s.ridx := rfl
@[simp] theorem State.emitDraw_rcnt : s.emitDraw.rcnt = s.rcnt := rfl
@[simp] theorem State.emitDraw_sel : s.emitDraw.sel = s.sel := rfl
@[simp] theorem State.emitDraw_phase : s.emitDraw.phase = s.phase := rfl
@[simp] theorem State.emitDraw_pos : s.emitDraw.pos = s.pos := rfl
@[simp] theorem State.emitDraw_seq : s.emitDraw.seq = s.seq := rfl
@[simp] theorem State.emitDraw_txbuf : s.emitDraw.txbuf = s.txbuf := rfl
@[simp] theorem State.emitDraw_cmd : s.emitDraw.cmd = s.cmd := rfl
@[simp] theorem State.emitDraw_txcorrupt : s.emitDraw.txcorrupt = s.txcorrupt := rfl
@[simp] theorem State.emitDraw_mode : s.emitDraw.mode = s.mode := rfl
@[simp] theorem State.emitDraw_lowcnt : s.emitDraw.lowcnt = s.lowcnt := rfl
@[simp] theorem State.emitDraw_refused : s.emitDraw.refused = s.refused := rfl
@[simp] theorem State.emitDraw_outputs : s.emitDraw.outputs = s.outputs ++ [.miso (Config.any8 s.draws)] := rfl
@[simp] theorem State.emitDraw_events : s.emitDraw.events = s.events := rfl
@[simp] theorem State.emitDraw_held : s.emitDraw.held = s.held := rfl
@[simp] theorem State.emitDraw_draws : s.emitDraw.draws = s.draws + 1 := rfl

/-! `writeTb`. -/

@[simp] theorem State.writeTb_tb (k : Nat) (v : Byte) : (s.writeTb k v).tb = s.tb.set k v := rfl
@[simp] theorem State.writeTb_hb (k : Nat) (v : Byte) : (s.writeTb k v).hb = s.hb := rfl
@[simp] theorem State.writeTb_ab (k : Nat) (v : Byte) : (s.writeTb k v).ab = s.ab := rfl
@[simp] theorem State.writeTb_valid (k : Nat) (v : Byte) : (s.writeTb k v).valid = s.valid := rfl
@[simp] theorem State.writeTb_ch (k : Nat) (v : Byte) : (s.writeTb k v).ch = s.ch := rfl
@[simp] theorem State.writeTb_settle (k : Nat) (v : Byte) : (s.writeTb k v).settle = s.settle := rfl
@[simp] theorem State.writeTb_abusy (k : Nat) (v : Byte) : (s.writeTb k v).abusy = s.abusy := rfl
@[simp] theorem State.writeTb_batLastMv (k : Nat) (v : Byte) : (s.writeTb k v).batLastMv = s.batLastMv := rfl
@[simp] theorem State.writeTb_voutMv (k : Nat) (v : Byte) : (s.writeTb k v).voutMv = s.voutMv := rfl
@[simp] theorem State.writeTb_batAvgMv (k : Nat) (v : Byte) : (s.writeTb k v).batAvgMv = s.batAvgMv := rfl
@[simp] theorem State.writeTb_ring (k : Nat) (v : Byte) : (s.writeTb k v).ring = s.ring := rfl
@[simp] theorem State.writeTb_ridx (k : Nat) (v : Byte) : (s.writeTb k v).ridx = s.ridx := rfl
@[simp] theorem State.writeTb_rcnt (k : Nat) (v : Byte) : (s.writeTb k v).rcnt = s.rcnt := rfl
@[simp] theorem State.writeTb_sel (k : Nat) (v : Byte) : (s.writeTb k v).sel = s.sel := rfl
@[simp] theorem State.writeTb_phase (k : Nat) (v : Byte) : (s.writeTb k v).phase = s.phase := rfl
@[simp] theorem State.writeTb_pos (k : Nat) (v : Byte) : (s.writeTb k v).pos = s.pos := rfl
@[simp] theorem State.writeTb_seq (k : Nat) (v : Byte) : (s.writeTb k v).seq = s.seq := rfl
@[simp] theorem State.writeTb_txbuf (k : Nat) (v : Byte) : (s.writeTb k v).txbuf = s.txbuf := rfl
@[simp] theorem State.writeTb_cmd (k : Nat) (v : Byte) : (s.writeTb k v).cmd = s.cmd := rfl
@[simp] theorem State.writeTb_txcorrupt (k : Nat) (v : Byte) : (s.writeTb k v).txcorrupt = s.txcorrupt := rfl
@[simp] theorem State.writeTb_mode (k : Nat) (v : Byte) : (s.writeTb k v).mode = s.mode := rfl
@[simp] theorem State.writeTb_lowcnt (k : Nat) (v : Byte) : (s.writeTb k v).lowcnt = s.lowcnt := rfl
@[simp] theorem State.writeTb_refused (k : Nat) (v : Byte) : (s.writeTb k v).refused = s.refused := rfl
@[simp] theorem State.writeTb_outputs (k : Nat) (v : Byte) : (s.writeTb k v).outputs = s.outputs := rfl
@[simp] theorem State.writeTb_events (k : Nat) (v : Byte) : (s.writeTb k v).events = s.events := rfl
@[simp] theorem State.writeTb_held (k : Nat) (v : Byte) : (s.writeTb k v).held = s.held := rfl
@[simp] theorem State.writeTb_draws (k : Nat) (v : Byte) : (s.writeTb k v).draws = s.draws := rfl

/-! `hold`. -/

@[simp] theorem State.hold_tb (i : Instr) : (s.hold i).tb = s.tb := rfl
@[simp] theorem State.hold_hb (i : Instr) : (s.hold i).hb = s.hb := rfl
@[simp] theorem State.hold_ab (i : Instr) : (s.hold i).ab = s.ab := rfl
@[simp] theorem State.hold_valid (i : Instr) : (s.hold i).valid = s.valid := rfl
@[simp] theorem State.hold_ch (i : Instr) : (s.hold i).ch = s.ch := rfl
@[simp] theorem State.hold_settle (i : Instr) : (s.hold i).settle = s.settle := rfl
@[simp] theorem State.hold_abusy (i : Instr) : (s.hold i).abusy = s.abusy := rfl
@[simp] theorem State.hold_batLastMv (i : Instr) : (s.hold i).batLastMv = s.batLastMv := rfl
@[simp] theorem State.hold_voutMv (i : Instr) : (s.hold i).voutMv = s.voutMv := rfl
@[simp] theorem State.hold_batAvgMv (i : Instr) : (s.hold i).batAvgMv = s.batAvgMv := rfl
@[simp] theorem State.hold_ring (i : Instr) : (s.hold i).ring = s.ring := rfl
@[simp] theorem State.hold_ridx (i : Instr) : (s.hold i).ridx = s.ridx := rfl
@[simp] theorem State.hold_rcnt (i : Instr) : (s.hold i).rcnt = s.rcnt := rfl
@[simp] theorem State.hold_sel (i : Instr) : (s.hold i).sel = s.sel := rfl
@[simp] theorem State.hold_phase (i : Instr) : (s.hold i).phase = s.phase := rfl
@[simp] theorem State.hold_pos (i : Instr) : (s.hold i).pos = s.pos := rfl
@[simp] theorem State.hold_seq (i : Instr) : (s.hold i).seq = s.seq := rfl
@[simp] theorem State.hold_txbuf (i : Instr) : (s.hold i).txbuf = s.txbuf := rfl
@[simp] theorem State.hold_cmd (i : Instr) : (s.hold i).cmd = s.cmd := rfl
@[simp] theorem State.hold_txcorrupt (i : Instr) : (s.hold i).txcorrupt = s.txcorrupt := rfl
@[simp] theorem State.hold_mode (i : Instr) : (s.hold i).mode = s.mode := rfl
@[simp] theorem State.hold_lowcnt (i : Instr) : (s.hold i).lowcnt = s.lowcnt := rfl
@[simp] theorem State.hold_refused (i : Instr) : (s.hold i).refused = s.refused := rfl
@[simp] theorem State.hold_outputs (i : Instr) : (s.hold i).outputs = [] := rfl
@[simp] theorem State.hold_events (i : Instr) : (s.hold i).events = s.events := rfl
@[simp] theorem State.hold_held (i : Instr) : (s.hold i).held = s.held ++ [encode i] := rfl
@[simp] theorem State.hold_draws (i : Instr) : (s.hold i).draws = s.draws := rfl

/-! `refuseWord`. -/

@[simp] theorem State.refuseWord_tb : s.refuseWord.tb = s.tb := rfl
@[simp] theorem State.refuseWord_hb : s.refuseWord.hb = s.hb := rfl
@[simp] theorem State.refuseWord_ab : s.refuseWord.ab = s.ab := rfl
@[simp] theorem State.refuseWord_valid : s.refuseWord.valid = s.valid := rfl
@[simp] theorem State.refuseWord_ch : s.refuseWord.ch = s.ch := rfl
@[simp] theorem State.refuseWord_settle : s.refuseWord.settle = s.settle := rfl
@[simp] theorem State.refuseWord_abusy : s.refuseWord.abusy = s.abusy := rfl
@[simp] theorem State.refuseWord_batLastMv : s.refuseWord.batLastMv = s.batLastMv := rfl
@[simp] theorem State.refuseWord_voutMv : s.refuseWord.voutMv = s.voutMv := rfl
@[simp] theorem State.refuseWord_batAvgMv : s.refuseWord.batAvgMv = s.batAvgMv := rfl
@[simp] theorem State.refuseWord_ring : s.refuseWord.ring = s.ring := rfl
@[simp] theorem State.refuseWord_ridx : s.refuseWord.ridx = s.ridx := rfl
@[simp] theorem State.refuseWord_rcnt : s.refuseWord.rcnt = s.rcnt := rfl
@[simp] theorem State.refuseWord_sel : s.refuseWord.sel = s.sel := rfl
@[simp] theorem State.refuseWord_phase : s.refuseWord.phase = s.phase := rfl
@[simp] theorem State.refuseWord_pos : s.refuseWord.pos = s.pos := rfl
@[simp] theorem State.refuseWord_seq : s.refuseWord.seq = s.seq := rfl
@[simp] theorem State.refuseWord_txbuf : s.refuseWord.txbuf = s.txbuf := rfl
@[simp] theorem State.refuseWord_cmd : s.refuseWord.cmd = s.cmd := rfl
@[simp] theorem State.refuseWord_txcorrupt : s.refuseWord.txcorrupt = s.txcorrupt := rfl
@[simp] theorem State.refuseWord_mode : s.refuseWord.mode = s.mode := rfl
@[simp] theorem State.refuseWord_lowcnt : s.refuseWord.lowcnt = s.lowcnt := rfl
@[simp] theorem State.refuseWord_refused : s.refuseWord.refused = true := rfl
@[simp] theorem State.refuseWord_outputs : s.refuseWord.outputs = [] := rfl
@[simp] theorem State.refuseWord_events : s.refuseWord.events = s.events := rfl
@[simp] theorem State.refuseWord_held : s.refuseWord.held = s.held := rfl
@[simp] theorem State.refuseWord_draws : s.refuseWord.draws = s.draws := rfl

/-! `ringPush`. -/

@[simp] theorem State.ringPush_tb (p : Config.Params) (v : Millivolts) : (s.ringPush p v).tb = s.tb := rfl
@[simp] theorem State.ringPush_hb (p : Config.Params) (v : Millivolts) : (s.ringPush p v).hb = s.hb := rfl
@[simp] theorem State.ringPush_ab (p : Config.Params) (v : Millivolts) : (s.ringPush p v).ab = s.ab := rfl
@[simp] theorem State.ringPush_valid (p : Config.Params) (v : Millivolts) : (s.ringPush p v).valid = s.valid := rfl
@[simp] theorem State.ringPush_ch (p : Config.Params) (v : Millivolts) : (s.ringPush p v).ch = s.ch := rfl
@[simp] theorem State.ringPush_settle (p : Config.Params) (v : Millivolts) : (s.ringPush p v).settle = s.settle := rfl
@[simp] theorem State.ringPush_abusy (p : Config.Params) (v : Millivolts) : (s.ringPush p v).abusy = s.abusy := rfl
@[simp] theorem State.ringPush_batLastMv (p : Config.Params) (v : Millivolts) : (s.ringPush p v).batLastMv = s.batLastMv := rfl
@[simp] theorem State.ringPush_voutMv (p : Config.Params) (v : Millivolts) : (s.ringPush p v).voutMv = s.voutMv := rfl
@[simp] theorem State.ringPush_batAvgMv (p : Config.Params) (v : Millivolts) : (s.ringPush p v).batAvgMv = s.batAvgMv := rfl
@[simp] theorem State.ringPush_ring (p : Config.Params) (v : Millivolts) : (s.ringPush p v).ring = s.ring.set s.ridx.toNat v := rfl
@[simp] theorem State.ringPush_ridx (p : Config.Params) (v : Millivolts) : (s.ringPush p v).ridx = BitVec.ofNat 8 ((s.ridx.toNat + 1) % p.m) := rfl
@[simp] theorem State.ringPush_rcnt (p : Config.Params) (v : Millivolts) : (s.ringPush p v).rcnt = BitVec.ofNat 8 (min (s.rcnt.toNat + 1) p.m) := rfl
@[simp] theorem State.ringPush_sel (p : Config.Params) (v : Millivolts) : (s.ringPush p v).sel = s.sel := rfl
@[simp] theorem State.ringPush_phase (p : Config.Params) (v : Millivolts) : (s.ringPush p v).phase = s.phase := rfl
@[simp] theorem State.ringPush_pos (p : Config.Params) (v : Millivolts) : (s.ringPush p v).pos = s.pos := rfl
@[simp] theorem State.ringPush_seq (p : Config.Params) (v : Millivolts) : (s.ringPush p v).seq = s.seq := rfl
@[simp] theorem State.ringPush_txbuf (p : Config.Params) (v : Millivolts) : (s.ringPush p v).txbuf = s.txbuf := rfl
@[simp] theorem State.ringPush_cmd (p : Config.Params) (v : Millivolts) : (s.ringPush p v).cmd = s.cmd := rfl
@[simp] theorem State.ringPush_txcorrupt (p : Config.Params) (v : Millivolts) : (s.ringPush p v).txcorrupt = s.txcorrupt := rfl
@[simp] theorem State.ringPush_mode (p : Config.Params) (v : Millivolts) : (s.ringPush p v).mode = s.mode := rfl
@[simp] theorem State.ringPush_lowcnt (p : Config.Params) (v : Millivolts) : (s.ringPush p v).lowcnt = s.lowcnt := rfl
@[simp] theorem State.ringPush_refused (p : Config.Params) (v : Millivolts) : (s.ringPush p v).refused = s.refused := rfl
@[simp] theorem State.ringPush_outputs (p : Config.Params) (v : Millivolts) : (s.ringPush p v).outputs = s.outputs := rfl
@[simp] theorem State.ringPush_events (p : Config.Params) (v : Millivolts) : (s.ringPush p v).events = s.events := rfl
@[simp] theorem State.ringPush_held (p : Config.Params) (v : Millivolts) : (s.ringPush p v).held = s.held := rfl
@[simp] theorem State.ringPush_draws (p : Config.Params) (v : Millivolts) : (s.ringPush p v).draws = s.draws := rfl

/-! `updateMean`. -/

@[simp] theorem State.updateMean_tb : s.updateMean.tb = s.tb := rfl
@[simp] theorem State.updateMean_hb : s.updateMean.hb = s.hb := rfl
@[simp] theorem State.updateMean_ab : s.updateMean.ab = s.ab := rfl
@[simp] theorem State.updateMean_valid : s.updateMean.valid = s.valid := rfl
@[simp] theorem State.updateMean_ch : s.updateMean.ch = s.ch := rfl
@[simp] theorem State.updateMean_settle : s.updateMean.settle = s.settle := rfl
@[simp] theorem State.updateMean_abusy : s.updateMean.abusy = s.abusy := rfl
@[simp] theorem State.updateMean_batLastMv : s.updateMean.batLastMv = s.batLastMv := rfl
@[simp] theorem State.updateMean_voutMv : s.updateMean.voutMv = s.voutMv := rfl
@[simp] theorem State.updateMean_batAvgMv : s.updateMean.batAvgMv = BitVec.ofNat 16 (natDiv s.ringSum s.rcnt.toNat) := rfl
@[simp] theorem State.updateMean_ring : s.updateMean.ring = s.ring := rfl
@[simp] theorem State.updateMean_ridx : s.updateMean.ridx = s.ridx := rfl
@[simp] theorem State.updateMean_rcnt : s.updateMean.rcnt = s.rcnt := rfl
@[simp] theorem State.updateMean_sel : s.updateMean.sel = s.sel := rfl
@[simp] theorem State.updateMean_phase : s.updateMean.phase = s.phase := rfl
@[simp] theorem State.updateMean_pos : s.updateMean.pos = s.pos := rfl
@[simp] theorem State.updateMean_seq : s.updateMean.seq = s.seq := rfl
@[simp] theorem State.updateMean_txbuf : s.updateMean.txbuf = s.txbuf := rfl
@[simp] theorem State.updateMean_cmd : s.updateMean.cmd = s.cmd := rfl
@[simp] theorem State.updateMean_txcorrupt : s.updateMean.txcorrupt = s.txcorrupt := rfl
@[simp] theorem State.updateMean_mode : s.updateMean.mode = s.mode := rfl
@[simp] theorem State.updateMean_lowcnt : s.updateMean.lowcnt = s.lowcnt := rfl
@[simp] theorem State.updateMean_refused : s.updateMean.refused = s.refused := rfl
@[simp] theorem State.updateMean_outputs : s.updateMean.outputs = s.outputs := rfl
@[simp] theorem State.updateMean_events : s.updateMean.events = s.events := rfl
@[simp] theorem State.updateMean_held : s.updateMean.held = s.held := rfl
@[simp] theorem State.updateMean_draws : s.updateMean.draws = s.draws := rfl

/-! `endAcquisition`. -/

@[simp] theorem State.endAcquisition_tb : s.endAcquisition.tb = s.tb := rfl
@[simp] theorem State.endAcquisition_hb : s.endAcquisition.hb = s.hb := rfl
@[simp] theorem State.endAcquisition_ab : s.endAcquisition.ab = s.ab := rfl
@[simp] theorem State.endAcquisition_valid : s.endAcquisition.valid = s.valid := rfl
@[simp] theorem State.endAcquisition_ch : s.endAcquisition.ch = s.ch.other := rfl
@[simp] theorem State.endAcquisition_settle : s.endAcquisition.settle = 0 := rfl
@[simp] theorem State.endAcquisition_abusy : s.endAcquisition.abusy = false := rfl
@[simp] theorem State.endAcquisition_batLastMv : s.endAcquisition.batLastMv = s.batLastMv := rfl
@[simp] theorem State.endAcquisition_voutMv : s.endAcquisition.voutMv = s.voutMv := rfl
@[simp] theorem State.endAcquisition_batAvgMv : s.endAcquisition.batAvgMv = s.batAvgMv := rfl
@[simp] theorem State.endAcquisition_ring : s.endAcquisition.ring = s.ring := rfl
@[simp] theorem State.endAcquisition_ridx : s.endAcquisition.ridx = s.ridx := rfl
@[simp] theorem State.endAcquisition_rcnt : s.endAcquisition.rcnt = s.rcnt := rfl
@[simp] theorem State.endAcquisition_sel : s.endAcquisition.sel = s.sel := rfl
@[simp] theorem State.endAcquisition_phase : s.endAcquisition.phase = s.phase := rfl
@[simp] theorem State.endAcquisition_pos : s.endAcquisition.pos = s.pos := rfl
@[simp] theorem State.endAcquisition_seq : s.endAcquisition.seq = s.seq := rfl
@[simp] theorem State.endAcquisition_txbuf : s.endAcquisition.txbuf = s.txbuf := rfl
@[simp] theorem State.endAcquisition_cmd : s.endAcquisition.cmd = s.cmd := rfl
@[simp] theorem State.endAcquisition_txcorrupt : s.endAcquisition.txcorrupt = s.txcorrupt := rfl
@[simp] theorem State.endAcquisition_mode : s.endAcquisition.mode = s.mode := rfl
@[simp] theorem State.endAcquisition_lowcnt : s.endAcquisition.lowcnt = s.lowcnt := rfl
@[simp] theorem State.endAcquisition_refused : s.endAcquisition.refused = s.refused := rfl
@[simp] theorem State.endAcquisition_outputs : s.endAcquisition.outputs = s.outputs := rfl
@[simp] theorem State.endAcquisition_events : s.endAcquisition.events = s.events := rfl
@[simp] theorem State.endAcquisition_held : s.endAcquisition.held = s.held := rfl
@[simp] theorem State.endAcquisition_draws : s.endAcquisition.draws = s.draws := rfl

/-! `openFrame`. -/

@[simp] theorem State.openFrame_tb (p : Config.Params) : (s.openFrame p).tb = s.tb := rfl
@[simp] theorem State.openFrame_hb (p : Config.Params) : (s.openFrame p).hb = s.hb := rfl
@[simp] theorem State.openFrame_ab (p : Config.Params) : (s.openFrame p).ab = s.ab := rfl
@[simp] theorem State.openFrame_valid (p : Config.Params) : (s.openFrame p).valid = s.valid := rfl
@[simp] theorem State.openFrame_ch (p : Config.Params) : (s.openFrame p).ch = s.ch := rfl
@[simp] theorem State.openFrame_settle (p : Config.Params) : (s.openFrame p).settle = s.settle := rfl
@[simp] theorem State.openFrame_abusy (p : Config.Params) : (s.openFrame p).abusy = s.abusy := rfl
@[simp] theorem State.openFrame_batLastMv (p : Config.Params) : (s.openFrame p).batLastMv = s.batLastMv := rfl
@[simp] theorem State.openFrame_voutMv (p : Config.Params) : (s.openFrame p).voutMv = s.voutMv := rfl
@[simp] theorem State.openFrame_batAvgMv (p : Config.Params) : (s.openFrame p).batAvgMv = s.batAvgMv := rfl
@[simp] theorem State.openFrame_ring (p : Config.Params) : (s.openFrame p).ring = s.ring := rfl
@[simp] theorem State.openFrame_ridx (p : Config.Params) : (s.openFrame p).ridx = s.ridx := rfl
@[simp] theorem State.openFrame_rcnt (p : Config.Params) : (s.openFrame p).rcnt = s.rcnt := rfl
@[simp] theorem State.openFrame_sel (p : Config.Params) : (s.openFrame p).sel = s.sel := rfl
@[simp] theorem State.openFrame_phase (p : Config.Params) : (s.openFrame p).phase = .active := rfl
@[simp] theorem State.openFrame_pos (p : Config.Params) : (s.openFrame p).pos = 0 := rfl
@[simp] theorem State.openFrame_seq (p : Config.Params) : (s.openFrame p).seq = s.seq := rfl
@[simp] theorem State.openFrame_txbuf (p : Config.Params) : (s.openFrame p).txbuf = s.snapshot p := rfl
@[simp] theorem State.openFrame_cmd (p : Config.Params) : (s.openFrame p).cmd = s.cmd := rfl
@[simp] theorem State.openFrame_txcorrupt (p : Config.Params) : (s.openFrame p).txcorrupt = false := rfl
@[simp] theorem State.openFrame_mode (p : Config.Params) : (s.openFrame p).mode = s.mode := rfl
@[simp] theorem State.openFrame_lowcnt (p : Config.Params) : (s.openFrame p).lowcnt = s.lowcnt := rfl
@[simp] theorem State.openFrame_refused (p : Config.Params) : (s.openFrame p).refused = s.refused := rfl
@[simp] theorem State.openFrame_outputs (p : Config.Params) : (s.openFrame p).outputs = s.outputs := rfl
@[simp] theorem State.openFrame_events (p : Config.Params) : (s.openFrame p).events = s.events := rfl
@[simp] theorem State.openFrame_held (p : Config.Params) : (s.openFrame p).held = s.held := rfl
@[simp] theorem State.openFrame_draws (p : Config.Params) : (s.openFrame p).draws = s.draws := rfl

/-! `acknowledge`. -/

@[simp] theorem State.acknowledge_tb (p : Config.Params) (rx : Byte) : (s.acknowledge p rx).tb = s.tb := rfl
@[simp] theorem State.acknowledge_hb (p : Config.Params) (rx : Byte) : (s.acknowledge p rx).hb = s.hb := rfl
@[simp] theorem State.acknowledge_ab (p : Config.Params) (rx : Byte) : (s.acknowledge p rx).ab = s.ab := rfl
@[simp] theorem State.acknowledge_valid (p : Config.Params) (rx : Byte) : (s.acknowledge p rx).valid = s.valid := rfl
@[simp] theorem State.acknowledge_ch (p : Config.Params) (rx : Byte) : (s.acknowledge p rx).ch = s.ch := rfl
@[simp] theorem State.acknowledge_settle (p : Config.Params) (rx : Byte) : (s.acknowledge p rx).settle = s.settle := rfl
@[simp] theorem State.acknowledge_abusy (p : Config.Params) (rx : Byte) : (s.acknowledge p rx).abusy = s.abusy := rfl
@[simp] theorem State.acknowledge_batLastMv (p : Config.Params) (rx : Byte) : (s.acknowledge p rx).batLastMv = s.batLastMv := rfl
@[simp] theorem State.acknowledge_voutMv (p : Config.Params) (rx : Byte) : (s.acknowledge p rx).voutMv = s.voutMv := rfl
@[simp] theorem State.acknowledge_batAvgMv (p : Config.Params) (rx : Byte) : (s.acknowledge p rx).batAvgMv = s.batAvgMv := rfl
@[simp] theorem State.acknowledge_ring (p : Config.Params) (rx : Byte) : (s.acknowledge p rx).ring = s.ring := rfl
@[simp] theorem State.acknowledge_ridx (p : Config.Params) (rx : Byte) : (s.acknowledge p rx).ridx = s.ridx := rfl
@[simp] theorem State.acknowledge_rcnt (p : Config.Params) (rx : Byte) : (s.acknowledge p rx).rcnt = s.rcnt := rfl
@[simp] theorem State.acknowledge_sel (p : Config.Params) (rx : Byte) : (s.acknowledge p rx).sel = s.sel := rfl
@[simp] theorem State.acknowledge_phase (p : Config.Params) (rx : Byte) : (s.acknowledge p rx).phase = s.phase := rfl
@[simp] theorem State.acknowledge_pos (p : Config.Params) (rx : Byte) : (s.acknowledge p rx).pos = s.pos := rfl
@[simp] theorem State.acknowledge_seq (p : Config.Params) (rx : Byte) : (s.acknowledge p rx).seq = resync s.seq rx + 1 := rfl
@[simp] theorem State.acknowledge_txbuf (p : Config.Params) (rx : Byte) : (s.acknowledge p rx).txbuf = s.txbuf.set (p.l - 1) (resync s.seq rx + 1) := rfl
@[simp] theorem State.acknowledge_cmd (p : Config.Params) (rx : Byte) : (s.acknowledge p rx).cmd = s.cmd := rfl
@[simp] theorem State.acknowledge_txcorrupt (p : Config.Params) (rx : Byte) : (s.acknowledge p rx).txcorrupt = s.txcorrupt := rfl
@[simp] theorem State.acknowledge_mode (p : Config.Params) (rx : Byte) : (s.acknowledge p rx).mode = s.mode := rfl
@[simp] theorem State.acknowledge_lowcnt (p : Config.Params) (rx : Byte) : (s.acknowledge p rx).lowcnt = s.lowcnt := rfl
@[simp] theorem State.acknowledge_refused (p : Config.Params) (rx : Byte) : (s.acknowledge p rx).refused = s.refused := rfl
@[simp] theorem State.acknowledge_outputs (p : Config.Params) (rx : Byte) : (s.acknowledge p rx).outputs = s.outputs := rfl
@[simp] theorem State.acknowledge_events (p : Config.Params) (rx : Byte) : (s.acknowledge p rx).events = s.events := rfl
@[simp] theorem State.acknowledge_held (p : Config.Params) (rx : Byte) : (s.acknowledge p rx).held = s.held := rfl
@[simp] theorem State.acknowledge_draws (p : Config.Params) (rx : Byte) : (s.acknowledge p rx).draws = s.draws := rfl

/-! `enterLowPower`. -/

@[simp] theorem State.enterLowPower_tb : s.enterLowPower.tb = s.tb := rfl
@[simp] theorem State.enterLowPower_hb : s.enterLowPower.hb = s.hb := rfl
@[simp] theorem State.enterLowPower_ab : s.enterLowPower.ab = s.ab := rfl
@[simp] theorem State.enterLowPower_valid : s.enterLowPower.valid = s.valid := rfl
@[simp] theorem State.enterLowPower_ch : s.enterLowPower.ch = s.ch := rfl
@[simp] theorem State.enterLowPower_settle : s.enterLowPower.settle = s.settle := rfl
@[simp] theorem State.enterLowPower_abusy : s.enterLowPower.abusy = s.abusy := rfl
@[simp] theorem State.enterLowPower_batLastMv : s.enterLowPower.batLastMv = s.batLastMv := rfl
@[simp] theorem State.enterLowPower_voutMv : s.enterLowPower.voutMv = s.voutMv := rfl
@[simp] theorem State.enterLowPower_batAvgMv : s.enterLowPower.batAvgMv = s.batAvgMv := rfl
@[simp] theorem State.enterLowPower_ring : s.enterLowPower.ring = s.ring := rfl
@[simp] theorem State.enterLowPower_ridx : s.enterLowPower.ridx = s.ridx := rfl
@[simp] theorem State.enterLowPower_rcnt : s.enterLowPower.rcnt = s.rcnt := rfl
@[simp] theorem State.enterLowPower_sel : s.enterLowPower.sel = s.sel := rfl
@[simp] theorem State.enterLowPower_phase : s.enterLowPower.phase = .idle := rfl
@[simp] theorem State.enterLowPower_pos : s.enterLowPower.pos = s.pos := rfl
@[simp] theorem State.enterLowPower_seq : s.enterLowPower.seq = s.seq := rfl
@[simp] theorem State.enterLowPower_txbuf : s.enterLowPower.txbuf = s.txbuf := rfl
@[simp] theorem State.enterLowPower_cmd : s.enterLowPower.cmd = s.cmd := rfl
@[simp] theorem State.enterLowPower_txcorrupt : s.enterLowPower.txcorrupt = s.txcorrupt := rfl
@[simp] theorem State.enterLowPower_mode : s.enterLowPower.mode = .lowPower := rfl
@[simp] theorem State.enterLowPower_lowcnt : s.enterLowPower.lowcnt = s.lowcnt := rfl
@[simp] theorem State.enterLowPower_refused : s.enterLowPower.refused = s.refused := rfl
@[simp] theorem State.enterLowPower_outputs : s.enterLowPower.outputs = s.outputs := rfl
@[simp] theorem State.enterLowPower_events : s.enterLowPower.events = s.events := rfl
@[simp] theorem State.enterLowPower_held : s.enterLowPower.held = s.held := rfl
@[simp] theorem State.enterLowPower_draws : s.enterLowPower.draws = s.draws := rfl

/-! `wake`. -/

@[simp] theorem State.wake_tb (p : Config.Params) : (s.wake p).tb = (s.clearErr p).tb := rfl
@[simp] theorem State.wake_hb (p : Config.Params) : (s.wake p).hb = s.hb := rfl
@[simp] theorem State.wake_ab (p : Config.Params) : (s.wake p).ab = s.ab := rfl
@[simp] theorem State.wake_valid (p : Config.Params) : (s.wake p).valid = s.valid := rfl
@[simp] theorem State.wake_ch (p : Config.Params) : (s.wake p).ch = s.ch := rfl
@[simp] theorem State.wake_settle (p : Config.Params) : (s.wake p).settle = s.settle := rfl
@[simp] theorem State.wake_abusy (p : Config.Params) : (s.wake p).abusy = s.abusy := rfl
@[simp] theorem State.wake_batLastMv (p : Config.Params) : (s.wake p).batLastMv = s.batLastMv := rfl
@[simp] theorem State.wake_voutMv (p : Config.Params) : (s.wake p).voutMv = s.voutMv := rfl
@[simp] theorem State.wake_batAvgMv (p : Config.Params) : (s.wake p).batAvgMv = s.batAvgMv := rfl
@[simp] theorem State.wake_ring (p : Config.Params) : (s.wake p).ring = s.ring := rfl
@[simp] theorem State.wake_ridx (p : Config.Params) : (s.wake p).ridx = s.ridx := rfl
@[simp] theorem State.wake_rcnt (p : Config.Params) : (s.wake p).rcnt = s.rcnt := rfl
@[simp] theorem State.wake_sel (p : Config.Params) : (s.wake p).sel = s.sel := rfl
@[simp] theorem State.wake_phase (p : Config.Params) : (s.wake p).phase = .idle := rfl
@[simp] theorem State.wake_pos (p : Config.Params) : (s.wake p).pos = s.pos := rfl
@[simp] theorem State.wake_seq (p : Config.Params) : (s.wake p).seq = if p.reinitClearsSeq then 0 else s.seq := rfl
@[simp] theorem State.wake_txbuf (p : Config.Params) : (s.wake p).txbuf = s.txbuf := rfl
@[simp] theorem State.wake_cmd (p : Config.Params) : (s.wake p).cmd = s.cmd := rfl
@[simp] theorem State.wake_txcorrupt (p : Config.Params) : (s.wake p).txcorrupt = false := rfl
@[simp] theorem State.wake_mode (p : Config.Params) : (s.wake p).mode = .active := rfl
@[simp] theorem State.wake_lowcnt (p : Config.Params) : (s.wake p).lowcnt = s.lowcnt := rfl
@[simp] theorem State.wake_refused (p : Config.Params) : (s.wake p).refused = s.refused := rfl
@[simp] theorem State.wake_outputs (p : Config.Params) : (s.wake p).outputs = s.outputs := rfl
@[simp] theorem State.wake_events (p : Config.Params) : (s.wake p).events = s.events := rfl
@[simp] theorem State.wake_held (p : Config.Params) : (s.wake p).held = s.held := rfl
@[simp] theorem State.wake_draws (p : Config.Params) : (s.wake p).draws = s.draws := rfl

end Sys2Proof.Machine
end

