-- ==== Sys2Proof/Laws/Ops.lean ====
section
/-! SUPPORT. Laws/Ops.lean: for each shared operation, once, everything it can do: reads after writes
of the telemetry image, what a hold or an application answers, what the delivery of an input can
answer, and the cases of each event's effect. Later proofs cite these and unfold no operation. -/

namespace Sys2Proof.Machine

/-! Reads of the telemetry image after writes (R21, R60). -/

@[simp] theorem State.writeTb_length (s : State) (k : Nat) (v : Byte) :
    (s.writeTb k v).tb.length = s.tb.length := by simp

theorem State.tbByte_eq_getElem (s : State) (k : Nat) (h : k < s.tb.length) :
    s.tbByte k = s.tb[k] := by simp [State.tbByte, h]

theorem State.tbByte_of_getElem? {s t : State} {k : Nat} (h : t.tb[k]? = s.tb[k]?) :
    t.tbByte k = s.tbByte k := by simp [State.tbByte, h]

theorem State.tbByte_writeTb_same (s : State) {k : Nat} (v : Byte) (h : k < s.tb.length) :
    (s.writeTb k v).tbByte k = v := by simp [State.tbByte, h]

theorem State.tbByte_writeTb_ne (s : State) {k j : Nat} (v : Byte) (h : j ≠ k) :
    (s.writeTb k v).tbByte j = s.tbByte j := by
  simp [State.tbByte, List.getElem?_set_ne (Ne.symm h)]

theorem State.getElem?_writeTb_ne (s : State) {k j : Nat} (v : Byte) (h : j ≠ k) :
    (s.writeTb k v).tb[j]? = s.tb[j]? := by
  simp [List.getElem?_set_ne (Ne.symm h)]

theorem State.tbByte_congr {s t : State} (h : t.tb = s.tb) (k : Nat) : t.tbByte k = s.tbByte k := by
  simp [State.tbByte, h]

/-- A record update that leaves the telemetry image alone leaves each of its bytes alone. -/
theorem State.err_congr (p : Config.Params) {s t : State} (h : t.tb = s.tb) : t.err p = s.err p :=
  State.tbByte_congr h _

/-! Holds and applications (R300). -/

theorem nonSerial_held {i : Instr} {f : State → State} {s : State} (h : s.phase = .active) :
    nonSerial i f s = .next (s.hold i) := by simp [nonSerial, h]

theorem nonSerial_applied {i : Instr} {f : State → State} {s : State} (h : s.phase ≠ .active) :
    nonSerial i f s = .next (f s.quiet) := by simp [nonSerial, h]

/-- What a non-serial event can answer: a hold inside a frame, its effect otherwise. -/
theorem nonSerial_cases {i : Instr} {f : State → State} {s t : State}
    (h : nonSerial i f s = .next t) :
    (s.phase = .active ∧ t = s.hold i) ∨ (s.phase ≠ .active ∧ t = f s.quiet) := by
  by_cases ha : s.phase = .active
  · rw [nonSerial_held ha] at h; cases h; exact .inl ⟨ha, rfl⟩
  · rw [nonSerial_applied ha] at h; cases h; exact .inr ⟨ha, rfl⟩

theorem serial_cases {f : State → State} {s t : State} (h : serial f s = .next t) :
    t = f s.quiet := by cases h; rfl

/-! The delivery of an input (R10, R291, R301). -/

theorem State.takeInput_none {s : State} (h : s.events = []) : s.takeInput = (.nothing, s) := by
  simp [State.takeInput, h]

theorem State.takeInput_word {s : State} {w : EventWord} {rest : List Input}
    (h : s.events = .word w :: rest) : s.takeInput = (.word w, { s with events := rest }) := by
  simp [State.takeInput, h]

theorem State.takeInput_held {s : State} {k : Nat} {w : EventWord} {rest : List Input}
    (h : s.events = .held k :: rest) (hk : s.held[k]? = some w) :
    s.takeInput = (.word w, { s with events := rest, held := s.held.eraseIdx k }) := by
  simp [State.takeInput, h, hk]

theorem State.takeInput_reset {s : State} {rest : List Input} (h : s.events = .reset :: rest) :
    s.takeInput = (.reset, { s with events := rest }) := by
  simp [State.takeInput, h]

/-- Taking an input changes the environment's two lists only. -/
theorem State.takeInput_frame {s u : State} {x : Delivery} (h : s.takeInput = (x, u)) :
    u = { s with events := u.events, held := u.held } := by
  unfold State.takeInput at h
  split at h
  · cases h; rfl
  · cases h; rfl
  · split at h <;> (cases h; rfl)
  · cases h; rfl

/-- What one step of the block can answer: it waits, is reset, refuses a word, or runs an event. -/
theorem deliver_cases {p : Config.Params}
    {run : Instr → State → Host.Outcome State Fault Refusal} {s t : State}
    (h : deliver p run s = .next t) :
    (∃ u, s.takeInput = (.nothing, u) ∧ t = u.quiet) ∨
    (∃ u, s.takeInput = (.reset, u) ∧ t = u.applyReset p) ∨
    (∃ w u e, s.takeInput = (.word w, u) ∧ decode w = .error e ∧ t = u.refuseWord) ∨
    (∃ w u i, s.takeInput = (.word w, u) ∧ decode w = .ok i ∧ run i u = .next t) := by
  unfold deliver at h
  split at h
  · next u hn => cases h; exact .inl ⟨u, hn, rfl⟩
  · next u hr => cases h; exact .inr (.inl ⟨u, hr, rfl⟩)
  · next w u hw =>
    split at h
    · next i hi => exact .inr (.inr (.inr ⟨w, u, i, hw, hi, h⟩))
    · next e he => cases h; exact .inr (.inr (.inl ⟨w, u, e, hw, he, rfl⟩))

/-! The effects of the events, each case once. -/

/-- The chained increment writes only the bytes it is given. -/
theorem State.chain_spec (s : State) (ks : List Nat) :
    s.chain ks = { s with tb := (s.chain ks).tb } ∧ (s.chain ks).tb.length = s.tb.length ∧
      ∀ k, k ∉ ks → (s.chain ks).tb[k]? = s.tb[k]? := by
  induction ks generalizing s with
  | nil => exact ⟨rfl, rfl, fun _ _ => rfl⟩
  | cons j ks ih =>
    unfold State.chain
    split
    · obtain ⟨h₁, h₂, h₃⟩ := ih (s.incTb j)
      refine ⟨?_, by simpa using h₂, fun k hk => ?_⟩
      · rw [h₁]; simp [State.writeTb]
      · simp only [List.mem_cons, not_or] at hk
        rw [h₃ k hk.2]
        exact State.getElem?_writeTb_ne s _ hk.1
    · refine ⟨rfl, by simp, fun k hk => ?_⟩
      simp only [List.mem_cons, not_or] at hk
      exact State.getElem?_writeTb_ne s _ hk.1

/-- The press counters: the count writes only the four counters. -/
theorem countPresses_spec (p : Config.Params) (s0 : State) (raw : Buttons) (s : State) :
    countPresses p s0 raw s = { s with tb := (countPresses p s0 raw s).tb } ∧
      (countPresses p s0 raw s).tb.length = s.tb.length ∧
      ∀ k, k ∉ lanes → (countPresses p s0 raw s).tb[k]? = s.tb[k]? := by
  unfold countPresses
  generalize lanes = bs
  induction bs generalizing s with
  | nil => exact ⟨rfl, rfl, fun _ _ => rfl⟩
  | cons b bs ih =>
    simp only [List.foldl_cons]
    split
    · obtain ⟨h₁, h₂, h₃⟩ := ih (s.countPress p b)
      refine ⟨?_, ?_, fun k hk => ?_⟩
      · rw [h₁]; simp [State.countPress, State.writeTb]
      · rw [h₂]; simp [State.countPress]
      · simp only [List.mem_cons, not_or] at hk
        rw [h₃ k hk.2]
        exact State.getElem?_writeTb_ne s _ hk.1
    · obtain ⟨h₁, h₂, h₃⟩ := ih s
      exact ⟨h₁, h₂, fun k hk => h₃ k fun h => hk (List.mem_cons_of_mem _ h)⟩

/-- Lane `b` of a register built lane by lane. -/
theorem getLsbD_ofLanes (f : Nat → Bool) {b : Nat} (h : b < 4) : (ofLanes f).getLsbD b = f b := by
  unfold ofLanes
  have hb : b = 0 ∨ b = 1 ∨ b = 2 ∨ b = 3 := by omega
  rcases hb with rfl | rfl | rfl | rfl <;>
    (generalize f 0 = x0, f 1 = x1, f 2 = x2, f 3 = x3
     cases x0 <;> cases x1 <;> cases x2 <;> cases x3 <;> rfl)

/-- ADC_START: ignored, or an acquisition begins (R140, R145). -/
theorem adcStart_cases (s : State) :
    (s.abusy = true ∧ adcStart s = s) ∨
    (s.abusy = false ∧ adcStart s =
      { s with settle := 0, abusy := true, outputs := s.outputs ++ [.convReq s.ch] }) := by
  unfold adcStart
  split
  · exact .inl ⟨by assumption, rfl⟩
  · exact .inr ⟨by simp_all, rfl⟩

/-- ADC_DONE: ignored, restarted while unsettled, or processed at the end of the acquisition (R142,
R144). -/
theorem adcDone_cases (p : Config.Params) (r : AdcCode) (s : State) :
    (s.abusy = false ∧ adcDone p r s = s) ∨
    (s.abusy = true ∧ s.settle.toNat + 1 < p.settleN ∧ adcDone p r s =
      { s with settle := BitVec.ofNat 8 (s.settle.toNat + 1),
               outputs := s.outputs ++ [.convReq s.ch] }) ∨
    (s.abusy = true ∧ p.settleN ≤ s.settle.toNat + 1 ∧
      adcDone p r s = (processSample p r s).endAcquisition) := by
  unfold adcDone
  split
  · exact .inl ⟨by simp_all, rfl⟩
  · split
    · exact .inr (.inl ⟨by simp_all, by assumption, rfl⟩)
    · exact .inr (.inr ⟨by simp_all, by omega, rfl⟩)

/-- A division by a positive divisor is the truncated quotient (R13). -/
theorem natDiv_of_pos {a b : Nat} (h : 0 < b) : natDiv a b = a / b := if_neg (Nat.ne_of_gt h)

/-- The voltage of a nonzero REFERENCE code (R147). -/
theorem referenceMv_of_ne_zero (p : Config.Params) {r : AdcCode} (h : r.toNat ≠ 0) :
    referenceMv p r = p.adcFs * p.vrefMv / r.toNat := natDiv_of_pos (Nat.pos_of_ne_zero h)

/-- The voltage of a BOARD_VOUT code where the full-scale code is positive (R150). -/
theorem boardVoutMv_of_pos {p : Config.Params} (h : 0 < p.adcFs) (b : Millivolts) (r : AdcCode) :
    boardVoutMv p b r = r.toNat * b.toNat / p.adcFs := natDiv_of_pos h

/-- The rolling average writes the ring, its counters, the mean and `TB[4..5]` only (R170 to R175). -/
theorem State.average_spec (p : Config.Params) (s : State) (v : Millivolts) :
    s.average p v =
      { s with ring := s.ring.set s.ridx.toNat v,
               ridx := BitVec.ofNat 8 ((s.ridx.toNat + 1) % p.m),
               rcnt := BitVec.ofNat 8 (min (s.rcnt.toNat + 1) p.m),
               batAvgMv := (s.average p v).batAvgMv, tb := (s.average p v).tb } ∧
    (s.average p v).tb.length = s.tb.length ∧
    ∀ k, k ∉ [4, 5] → (s.average p v).tb[k]? = s.tb[k]? := by
  refine ⟨rfl, by simp [State.average, State.updateTelemetry], fun k hk => ?_⟩
  simp only [List.mem_cons, not_or] at hk
  unfold State.average State.updateTelemetry
  rw [State.writeBatTel_eq, State.getElem?_writeTb_ne _ _ hk.2.1, State.getElem?_writeTb_ne _ _ hk.1]
  rfl

/-- A settled sample: nothing on a rejected code, a stored reading otherwise, with the rolling average
on REFERENCE (R147 to R150). -/
theorem processSample_cases (p : Config.Params) (r : AdcCode) (s : State) :
    (s.ch = .reference ∧ referenceRejected p r = true ∧ processSample p r s = s) ∨
    (s.ch = .reference ∧ referenceRejected p r = false ∧ processSample p r s =
      { s with batLastMv := BitVec.ofNat 16 (referenceMv p r) }.average p
        (BitVec.ofNat 16 (referenceMv p r))) ∨
    (s.ch = .boardVout ∧ p.vCeilMv < boardVoutMv p s.batLastMv r ∧ processSample p r s = s) ∨
    (s.ch = .boardVout ∧ boardVoutMv p s.batLastMv r ≤ p.vCeilMv ∧ processSample p r s =
      { s with voutMv := BitVec.ofNat 16 (boardVoutMv p s.batLastMv r) }) := by
  unfold processSample
  split
  · next hc =>
    unfold processReference
    split
    · exact .inl ⟨hc, by assumption, rfl⟩
    · exact .inr (.inl ⟨hc, by simp_all, rfl⟩)
  · next hc =>
    unfold processBoardVout
    split
    · exact .inr (.inr (.inl ⟨hc, by assumption, rfl⟩))
    · exact .inr (.inr (.inr ⟨hc, by omega, rfl⟩))

/-- When a REFERENCE code is accepted (R147). -/
theorem referenceRejected_eq_false (p : Config.Params) (r : AdcCode) :
    referenceRejected p r = false ↔
      r.toNat ≠ p.sentinel ∧ r.toNat ≠ 0 ∧ referenceMv p r ≤ p.vCeilMv := by
  simp [referenceRejected, and_assoc]

/-- SEL_ASSERT: ignored, tracked only, or a frame opens (R190, R208). -/
theorem selAssert_cases (p : Config.Params) (s : State) :
    (s.sel = true ∧ selAssert p s = s) ∨
    (s.sel = false ∧ s.mode = .active ∧ selAssert p s = { s with sel := true }.openFrame p) ∨
    (s.sel = false ∧ s.mode = .lowPower ∧ selAssert p s = { s with sel := true }) := by
  unfold selAssert
  split
  · exact .inl ⟨by assumption, rfl⟩
  · next hs =>
    have hs : s.sel = false := by simpa using hs
    split
    · exact .inr (.inl ⟨hs, by assumption, rfl⟩)
    · next hm => exact .inr (.inr ⟨hs, by cases h : s.mode <;> simp_all, rfl⟩)

/-- SEL_DEASSERT: ignored, or the frame ends (R193). -/
theorem selDeassert_cases (s : State) :
    (s.sel = false ∧ selDeassert s = s) ∨
    (s.sel = true ∧ selDeassert s = { s with sel := false, phase := .idle }) := by
  unfold selDeassert
  split
  · exact .inr ⟨by assumption, rfl⟩
  · exact .inl ⟨by simp_all, rfl⟩

/-- The reply changes the outputs, the count of draws and `TXCORRUPT` only: the byte `TXBUF[P]` in an
open frame without a collision before it, a free draw otherwise (R196). -/
theorem State.reply_cases (s : State) :
    (∃ v, s.txcorrupt = false ∧ s.phase = .active ∧ s.txbuf[s.pos.toNat]? = some v ∧
      s.reply = { s with outputs := s.outputs ++ [.miso v], txcorrupt := false }) ∨
    ((s.txcorrupt = true ∨ s.phase ≠ .active ∨ s.txbuf[s.pos.toNat]? = none) ∧
      s.reply = { s with outputs := s.outputs ++ [.miso (Config.any8 s.draws)],
                         draws := s.draws + 1, txcorrupt := false }) := by
  unfold State.reply State.emitReply
  split
  · next h => exact .inr ⟨h.elim .inl (fun h => .inr (.inl h)), rfl⟩
  · next h =>
    simp only [not_or, Bool.not_eq_true, Decidable.not_not] at h
    split
    · next v hv => exact .inl ⟨v, h.1, h.2, hv, rfl⟩
    · next hv => exact .inr ⟨.inr (.inr hv), rfl⟩

/-- Position handling: position 0, a later position of an open frame, or a byte after the frame (R198,
R200, R202). -/
theorem State.takeByte_cases (p : Config.Params) (s : State) (rx : Byte) :
    (s.phase = .active ∧ s.pos = 0 ∧ s.takeByte p rx =
      { s with cmd := s.cmd.set s.pos.toNat rx, seq := resync s.seq rx + 1,
               txbuf := s.txbuf.set (p.l - 1) (resync s.seq rx + 1), pos := s.pos + 1 }) ∨
    (s.phase = .active ∧ s.pos ≠ 0 ∧ s.takeByte p rx =
      { s with cmd := s.cmd.set s.pos.toNat rx, pos := s.pos + 1 }) ∨
    (s.phase ≠ .active ∧ s.takeByte p rx = { s with phase := .aborted }) := by
  unfold State.takeByte
  split
  · next ha =>
    by_cases h0 : s.pos = 0
    · refine .inl ⟨ha, h0, ?_⟩
      rw [if_pos h0]
      rfl
    · refine .inr (.inl ⟨ha, h0, ?_⟩)
      rw [if_neg h0]
      rfl
  · next ha => exact .inr (.inr ⟨ha, rfl⟩)

/-- The acknowledgement id is the declared id plus one, whatever the slave's id was (R201(a)). -/
@[simp] theorem resync_eq (seq rx : Byte) : resync seq rx = rx := by
  unfold resync
  split
  · simp_all
  · split
    · rfl
    · simp_all

/-- Recording a byte's conditions: `ERR`, `TXCORRUPT` and the strobe (R203, R206, R260). -/
theorem State.recordByte_spec (p : Config.Params) (s : State) (wcol : Bool) (e : Byte) :
    s.recordByte p wcol e =
      { s with tb := s.tb.set (p.l - 2) (s.err p ||| e), txcorrupt := s.txcorrupt || wcol,
               outputs := s.outputs ++ (if e = 0 then [] else [.errEvt]) } := by
  unfold State.recordByte
  split
  · simp; rfl
  · rfl

/-- Completion: only when the `L`-th byte of an open frame was accepted; then the clear rule, the press
counters and the phase (R204, R205). -/
theorem State.complete_cases (p : Config.Params) (s : State) :
    (s.phase = .active ∧ s.pos.toNat = p.l ∧ s.complete p =
      { s with tb := ((if s.cmd.head? = some 1 then s.clearErr p else s).clearCounters).tb,
               phase := .done }) ∨
    (¬(s.phase = .active ∧ s.pos.toNat = p.l) ∧ s.complete p = s) := by
  unfold State.complete
  split
  · next h =>
    refine .inl ⟨h.1, h.2, ?_⟩
    split <;> rfl
  · next h => exact .inr ⟨h, rfl⟩

/-- PWR_POLL: the low count, then the entry, the wake, or neither (R240). -/
theorem pwrPoll_cases (p : Config.Params) (s : State) :
    (s.mode = .active ∧ (s.countLow p).toNat = p.lowLimit ∧ pwrPoll p s =
      { s with lowcnt := s.countLow p, mode := .lowPower, phase := .idle }) ∨
    (s.mode = .lowPower ∧ p.vOnMv ≤ s.voutMv.toNat ∧ pwrPoll p s =
      { s with lowcnt := s.countLow p, tb := s.tb.set (p.l - 2) p.errNone, mode := .active,
               phase := .idle, txcorrupt := false,
               seq := if p.reinitClearsSeq then 0 else s.seq }) ∨
    (¬(s.mode = .active ∧ (s.countLow p).toNat = p.lowLimit) ∧
      ¬(s.mode = .lowPower ∧ p.vOnMv ≤ s.voutMv.toNat) ∧
      pwrPoll p s = { s with lowcnt := s.countLow p }) := by
  unfold pwrPoll
  simp only []
  split
  · next h => exact .inl ⟨h.1, h.2, rfl⟩
  · next h =>
    split
    · next h' => exact .inr (.inl ⟨h'.1, h'.2, rfl⟩)
    · next h' => exact .inr (.inr ⟨h, h', rfl⟩)

end Sys2Proof.Machine
end

