-- ==== Sys2Proof/Laws/Serial.lean ====
section
/-! SUPPORT. Laws/Serial.lean: SPI_BYTE at once: the reply byte as a value, and everything steps 1 to 5
of R195 write as one record, so that a proof about a byte splits on completion only. -/

namespace Sys2Proof.Machine

/-- The reply byte of an SPI_BYTE in a frame that is open, done or aborted (R196). -/
def State.replyByte (s : State) : Byte :=
  if s.txcorrupt = true ∨ s.phase ≠ .active then Config.any8 s.draws
  else s.txbuf.getD s.pos.toNat (Config.any8 s.draws)

/-- The count of draws after that reply. -/
def State.replyDraws (s : State) : Nat :=
  if s.txcorrupt = true ∨ s.phase ≠ .active ∨ s.txbuf.length ≤ s.pos.toNat then s.draws + 1
  else s.draws

/-- Step 1 as one record update: the reply byte, the draws, and `TXCORRUPT` cleared (R195). -/
theorem State.reply_eq (s : State) :
    s.reply = { s with outputs := s.outputs ++ [.miso s.replyByte], draws := s.replyDraws,
                       txcorrupt := false } := by
  rcases State.reply_cases s with ⟨v, hc, ha, hv, h⟩ | ⟨hn, h⟩
  · have hl : s.pos.toNat < s.txbuf.length := (List.getElem?_eq_some_iff.1 hv).1
    rw [h]
    simp [State.replyByte, State.replyDraws, hc, ha, hl, (List.getElem?_eq_some_iff.1 hv).2]
  · rw [h]
    rcases hn with hc | ha | hv
    · simp [State.replyByte, State.replyDraws, hc]
    · simp [State.replyByte, State.replyDraws, ha]
    · have hl := List.getElem?_eq_none_iff.1 hv
      simp [State.replyByte, State.replyDraws, hl]

/-- SPI_BYTE in a frame, before step 6: everything steps 1 to 5 write, at once (R195). -/
def State.afterByte (p : Config.Params) (ovf wcol : Bool) (rx : Byte) (s : State) : State :=
  let e := spiErrors s.phase s.pos s.seq ovf wcol rx
  { s with
    tb := s.tb.set (p.l - 2) (s.err p ||| e)
    cmd := if s.phase = .active then s.cmd.set s.pos.toNat rx else s.cmd
    seq := if s.phase = .active ∧ s.pos = 0 then rx + 1 else s.seq
    txbuf := if s.phase = .active ∧ s.pos = 0 then s.txbuf.set (p.l - 1) (rx + 1) else s.txbuf
    pos := if s.phase = .active then s.pos + 1 else s.pos
    phase := if s.phase = .active then .active else .aborted
    txcorrupt := wcol
    outputs := s.outputs ++ .miso s.replyByte :: (if e = 0 then [] else [.errEvt])
    draws := s.replyDraws }

/-- An SPI_BYTE outside a frame (R207). -/
theorem spiByte_idle (p : Config.Params) (ovf wcol : Bool) (rx : Byte) (s : State)
    (h : s.phase = .idle) : spiByte p ovf wcol rx s = s.emitDraw := by simp [spiByte, h]

/-- An SPI_BYTE in a frame that is open, done or aborted is steps 1 to 5 and then step 6 (R195). -/
theorem spiByte_eq (p : Config.Params) (ovf wcol : Bool) (rx : Byte) (s : State)
    (h : s.phase ≠ .idle) :
    spiByte p ovf wcol rx s = (s.afterByte p ovf wcol rx).complete p := by
  unfold spiByte
  rw [if_neg h]
  simp only []
  congr 1
  rw [State.recordByte_spec, State.reply_eq]
  rcases State.takeByte_cases p
      { s with outputs := s.outputs ++ [.miso s.replyByte], draws := s.replyDraws,
               txcorrupt := false } rx
    with ⟨ha, h0, ht⟩ | ⟨ha, h0, ht⟩ | ⟨ha, ht⟩ <;> rw [ht]
  · simp only [] at ha h0
    simp [State.afterByte, ha, h0, State.err, State.tbByte]
  · simp only [] at ha h0
    simp only [State.afterByte, ha, h0, State.err, State.tbByte, and_false, if_false, if_true,
      Bool.false_or, List.append_assoc, List.singleton_append]
  · simp only [] at ha
    simp [State.afterByte, ha, State.err, State.tbByte]

end Sys2Proof.Machine
end

