-- ==== Sys2Proof/Laws/Events.lean ====
section
/-! SUPPORT. Laws/Events.lean: everything one event can do, said once: `execWith_effect` turns an answer
of the machine into one of the listed next states, each written out, with the guard under which it is
answered. `cases execWith_effect h` is the case split of a whole-machine proof. -/

namespace Sys2Proof.Machine

/-- The telemetry image after the completion of a frame whose last byte left the state `a` (R204,
R205). -/
def State.completedTb (p : Config.Params) (a : State) : List Byte :=
  ((if a.cmd.head? = some 1 then a.clearErr p else a).clearCounters).tb

/-- The next states an event can answer, each with its guard. -/
inductive Effect (p : Config.Params) (s : State) : Instr → State → Prop
  | held {i} (h : s.phase = .active) (hn : i.isSerial = false) : Effect p s i (s.hold i)
  | tick (h : s.phase ≠ .active) (tb : List Byte) (hl : tb.length = s.tb.length)
      (hk : ∀ k, k ∉ [10, 9, 8, 7] → tb[k]? = s.tb[k]?) :
      Effect p s .tick { s with tb := tb, hb := wrapInc s.hb p.hbWidth, outputs := [] }
  | hbAck (h : s.phase ≠ .active) : Effect p s .hbAck { s with hb := 0, outputs := [] }
  | polled (h : s.phase ≠ .active) (raw valid : Buttons) (tb : List Byte)
      (hl : tb.length = s.tb.length) (hk : ∀ k, k ∉ [0, 1, 2, 3, 6] → tb[k]? = s.tb[k]?) :
      Effect p s (.btnPoll raw) { s with tb := tb, ab := raw, valid := valid, outputs := [] }
  | startIgnored (h : s.phase ≠ .active) (hb : s.abusy = true) :
      Effect p s .adcStart { s with outputs := [] }
  | started (h : s.phase ≠ .active) (hb : s.abusy = false) :
      Effect p s .adcStart { s with settle := 0, abusy := true, outputs := [.convReq s.ch] }
  | doneIgnored (r : AdcCode) (h : s.phase ≠ .active) (hb : s.abusy = false) :
      Effect p s (.adcDone r) { s with outputs := [] }
  | unsettled (r : AdcCode) (h : s.phase ≠ .active) (hb : s.abusy = true)
      (hs : s.settle.toNat + 1 < p.settleN) :
      Effect p s (.adcDone r)
        { s with settle := BitVec.ofNat 8 (s.settle.toNat + 1), outputs := [.convReq s.ch] }
  | rejected (r : AdcCode) (h : s.phase ≠ .active) (hb : s.abusy = true)
      (hs : p.settleN ≤ s.settle.toNat + 1) (hc : s.ch = .reference)
      (hr : referenceRejected p r = true) :
      Effect p s (.adcDone r)
        { s with ch := .boardVout, settle := 0, abusy := false, outputs := [] }
  | accepted (r : AdcCode) (h : s.phase ≠ .active) (hb : s.abusy = true)
      (hs : p.settleN ≤ s.settle.toNat + 1) (hc : s.ch = .reference)
      (hr : referenceRejected p r = false) (v : Millivolts)
      (hv : v = BitVec.ofNat 16 (referenceMv p r)) (tb : List Byte) (mean : Millivolts)
      (htb : tb = (({ s with batLastMv := v } : State).average p v).tb)
      (hm : mean = (({ s with batLastMv := v } : State).average p v).batAvgMv) :
      Effect p s (.adcDone r)
        { s with tb := tb, batLastMv := v, ring := s.ring.set s.ridx.toNat v,
                 ridx := BitVec.ofNat 8 ((s.ridx.toNat + 1) % p.m),
                 rcnt := BitVec.ofNat 8 (min (s.rcnt.toNat + 1) p.m), batAvgMv := mean,
                 ch := .boardVout, settle := 0, abusy := false, outputs := [] }
  | scaled (r : AdcCode) (h : s.phase ≠ .active) (hb : s.abusy = true)
      (hs : p.settleN ≤ s.settle.toNat + 1) (hc : s.ch = .boardVout) (v : Millivolts)
      (hv : v = if p.vCeilMv < boardVoutMv p s.batLastMv r then s.voutMv
        else BitVec.ofNat 16 (boardVoutMv p s.batLastMv r)) :
      Effect p s (.adcDone r)
        { s with voutMv := v, ch := .reference, settle := 0, abusy := false, outputs := [] }
  | assertIgnored (h : s.sel = true) : Effect p s .selAssert { s with outputs := [] }
  | opened (h : s.sel = false) (hm : s.mode = .active) :
      Effect p s .selAssert
        { s with sel := true, phase := .active, pos := 0, txcorrupt := false,
                 txbuf := s.snapshot p, outputs := [] }
  | tracked (h : s.sel = false) (hm : s.mode = .lowPower) :
      Effect p s .selAssert { s with sel := true, outputs := [] }
  | deassertIgnored (h : s.sel = false) : Effect p s .selDeassert { s with outputs := [] }
  | ended (h : s.sel = true) :
      Effect p s .selDeassert { s with sel := false, phase := .idle, outputs := [] }
  | byteIdle (ovf wcol : Bool) (rx : Byte) (h : s.phase = .idle) :
      Effect p s (.spiByte ovf wcol rx)
        { s with outputs := [.miso (Config.any8 s.draws)], draws := s.draws + 1 }
  | byteTaken (ovf wcol : Bool) (rx : Byte) (h : s.phase ≠ .idle)
      (hc : ¬(s.phase = .active ∧ (s.pos + 1).toNat = p.l)) :
      Effect p s (.spiByte ovf wcol rx) (s.quiet.afterByte p ovf wcol rx)
  | completed (ovf wcol : Bool) (rx : Byte) (h : s.phase = .active)
      (hc : (s.pos + 1).toNat = p.l) :
      Effect p s (.spiByte ovf wcol rx)
        { (s.quiet.afterByte p ovf wcol rx) with
          phase := .done, tb := (s.quiet.afterByte p ovf wcol rx).completedTb p }
  | entered (h : s.phase ≠ .active) (hm : s.mode = .active)
      (hl : (s.countLow p).toNat = p.lowLimit) :
      Effect p s .pwrPoll
        { s with lowcnt := s.countLow p, mode := .lowPower, phase := .idle, outputs := [] }
  | woken (h : s.phase ≠ .active) (hm : s.mode = .lowPower) (hv : p.vOnMv ≤ s.voutMv.toNat) :
      Effect p s .pwrPoll
        { s with lowcnt := s.countLow p, tb := s.tb.set (p.l - 2) p.errNone, mode := .active,
                 phase := .idle, txcorrupt := false,
                 seq := (if p.reinitClearsSeq then 0 else s.seq), outputs := [] }
  | counted (h : s.phase ≠ .active)
      (he : ¬(s.mode = .active ∧ (s.countLow p).toNat = p.lowLimit))
      (hw : ¬(s.mode = .lowPower ∧ p.vOnMv ≤ s.voutMv.toNat)) :
      Effect p s .pwrPoll { s with lowcnt := s.countLow p, outputs := [] }

/-- Everything one event can do. -/
theorem execWith_effect {p : Config.Params} {i : Instr} {s t : State}
    (hx : execWith p i s = .next t) : Effect p s i t := by
  cases i <;> simp only [execWith, tickEvent, hbAckEvent, btnPollEvent, adcStartEvent, adcDoneEvent,
    selAssertEvent, selDeassertEvent, spiByteEvent, pwrPollEvent] at hx
  case selAssert =>
    rw [serial_cases hx]
    rcases selAssert_cases p s.quiet with ⟨a, h⟩ | ⟨a, b, h⟩ | ⟨a, b, h⟩ <;> rw [h]
    exacts [.assertIgnored a, .opened a b, .tracked a b]
  case selDeassert =>
    rw [serial_cases hx]
    rcases selDeassert_cases s.quiet with ⟨a, h⟩ | ⟨a, h⟩ <;> rw [h]
    exacts [.deassertIgnored a, .ended a]
  case spiByte o w rx =>
    rw [serial_cases hx]
    by_cases hi : s.phase = .idle
    · rw [spiByte_idle _ _ _ _ s.quiet hi]
      exact .byteIdle _ _ _ hi
    · rw [spiByte_eq _ _ _ _ s.quiet hi]
      have hpa : (s.quiet.afterByte p o w rx).phase = .active ↔ s.phase = .active := by
        simp only [State.afterByte, State.quiet_phase]
        by_cases s.phase = .active <;> simp_all
      rcases State.complete_cases p (s.quiet.afterByte p o w rx) with ⟨a, b, h⟩ | ⟨a, h⟩ <;> rw [h]
      · have a := hpa.1 a
        exact .completed o w rx a (by simpa [State.afterByte, a] using b)
      · refine .byteTaken o w rx hi ?_
        rintro ⟨q₁, q₂⟩
        exact a ⟨hpa.2 q₁, by simpa [State.afterByte, q₁] using q₂⟩
  all_goals
    rcases nonSerial_cases hx with ⟨ha, rfl⟩ | ⟨ha, rfl⟩
    · exact .held ha rfl
  case tick.inr =>
    obtain ⟨a, b, c⟩ := State.chain_spec s.quiet [10, 9, 8, 7]
    unfold Machine.tick
    rw [a]
    exact .tick ha _ b c
  case hbAck.inr => exact .hbAck ha
  case btnPoll.inr raw =>
    obtain ⟨a, b, c⟩ := countPresses_spec p s.quiet raw s.quiet
    unfold Machine.btnPoll
    rw [a]
    refine .polled ha _ _ _ (by simpa using b) fun k hk => ?_
    simp only [List.mem_cons, List.not_mem_nil, or_false, not_or] at hk
    refine Eq.trans ?_ (c k (by simp [lanes]; tauto))
    simp [List.getElem?_set]
    tauto
  case adcStart.inr =>
    rcases adcStart_cases s.quiet with ⟨a, h⟩ | ⟨a, h⟩ <;> rw [h]
    exacts [.startIgnored ha a, .started ha a]
  case adcDone.inr r =>
    rcases adcDone_cases p r s.quiet with ⟨a, e⟩ | ⟨a, b, e⟩ | ⟨a, b, e⟩ <;> rw [e]
    · exact .doneIgnored r ha a
    · exact .unsettled r ha a b
    · rcases processSample_cases p r s.quiet with ⟨c, d, e⟩ | ⟨c, d, e⟩ | ⟨c, d, e⟩ | ⟨c, d, e⟩ <;>
        rw [e]
      · simp only [State.endAcquisition, c]
        exact .rejected r ha a b c d
      · unfold State.endAcquisition
        rw [(State.average_spec _ _ _).1]
        simp only [c, Channel.other]
        exact .accepted r ha a b c d _ rfl _ _ rfl rfl
      · simp only [State.endAcquisition, c]
        exact .scaled r ha a b c s.voutMv (if_pos (by simpa using d)).symm
      · simp only [State.endAcquisition, c]
        exact .scaled r ha a b c _ (if_neg (by simpa using d)).symm
  case pwrPoll.inr =>
    rcases pwrPoll_cases p s.quiet with ⟨a, b, h⟩ | ⟨a, b, h⟩ | ⟨a, b, h⟩ <;> rw [h]
    exacts [.entered ha a b, .woken ha a b, .counted ha a b]

end Sys2Proof.Machine
end

