-- ==== Sys2Proof/Laws/PerInstr.lean ====
section
/-! SUPPORT. Laws/PerInstr.lean: statements made per event, one lemma per constructor: the word of an
event selects the event's own row of the opcode map (spec/30_encoding.md R83). -/

namespace Sys2Proof.Laws

/-- The word of an event selects its row: `(w & mask) = match`. -/
def EncodingRow.Statement (i : Instr) : Prop := i.row.selects (encode i) = true

theorem EncodingRow.tick : EncodingRow.Statement .tick := rfl

theorem EncodingRow.hbAck : EncodingRow.Statement .hbAck := rfl

theorem EncodingRow.btnPoll (raw : Buttons) : EncodingRow.Statement (.btnPoll raw) := by
  show (Instr.btnPoll raw).row.selects (encode (.btnPoll raw)) = true
  revert raw
  decide

theorem EncodingRow.adcStart : EncodingRow.Statement .adcStart := rfl

theorem EncodingRow.adcDone (r : AdcCode) : EncodingRow.Statement (.adcDone r) := by
  show ((0x5000#16 ||| r.setWidth 16) &&& 0xFC00#16 == 0x5000#16) = true
  rw [beq_iff_eq]
  ext k hk
  simp only [BitVec.getElem_and, BitVec.getElem_or, BitVec.getElem_setWidth]
  by_cases h : k < 10
  · have : (0xFC00#16)[k] = false := by
      clear r
      revert k
      decide
    rw [this, Bool.and_false]
    clear r this
    revert k
    decide
  · rw [BitVec.getLsbD_of_ge r k (by omega), Bool.or_false]
    clear r
    revert k
    decide

theorem EncodingRow.selAssert : EncodingRow.Statement .selAssert := rfl

theorem EncodingRow.selDeassert : EncodingRow.Statement .selDeassert := rfl

theorem EncodingRow.spiByte (ovf wcol : Bool) (rx : Byte) :
    EncodingRow.Statement (.spiByte ovf wcol rx) := by
  show ((0x8000#16 ||| (BitVec.ofBool ovf).setWidth 16 <<< 9 ||| (BitVec.ofBool wcol).setWidth 16 <<< 8 |||
    rx.setWidth 16) &&& 0xFC00#16 == 0x8000#16) = true
  rw [beq_iff_eq]
  ext k hk
  simp only [BitVec.getElem_and, BitVec.getElem_or, BitVec.getElem_setWidth]
  by_cases h : k < 8
  · have : (0xFC00#16)[k] = false := by
      clear rx
      revert k
      decide
    rw [this, Bool.and_false]
    clear rx this
    revert k
    decide
  · rw [BitVec.getLsbD_of_ge rx k (by omega), Bool.or_false]
    clear rx
    revert k
    cases ovf <;> cases wcol <;> decide

theorem EncodingRow.pwrPoll : EncodingRow.Statement .pwrPoll := rfl

end Sys2Proof.Laws
end

