-- ==== Sys2Proof/Tests/Slice0.lean ====
section
/-! SUPPORT. Tests/Slice0.lean: the model's own tests. Expected results come from
spec/95_test_vectors.md (EN-*, TK-*, DB-*, AD-*, AV-*, SP-*, PW-*, RS-*) and spec/30_encoding.md R92.
The `witness_` theorems show, for each statement with hypotheses, a state and operands that meet all of
them, at a boundary where the statement has one. -/

namespace Sys2Proof.Tests

open Sys2Proof Sys2Proof.Machine

/-- The example parameter assignment of spec/95_test_vectors.md, section 0. -/
def ex : Config.Params where
  l := 20
  m := 40
  settleN := 2
  adcBits := 10
  adcFs := 1023
  sentinel := 1023
  vCeilMv := 4500
  nb := 4
  cntMax := 255
  lowLimit := 400
  pollPeriodMs := 25
  vrefMv := 1100
  vOffMv := 3000
  vOnMv := 3200
  vOperMv := 3300
  dropLoMv := 200
  dropHiMv := 300
  hbWidth := 16
  hbThreshold := 40
  tickPeriod := 0
  reinitClearsSeq := false
  errNone := 0x01#8

/-- Reset with the example parameters. -/
def boot : State := State.resetWith ex

/-- A telemetry image: four press counters, two battery bytes, the line byte, four tick bytes, the
error byte. -/
def image (c : List Byte) (bat : List Byte) (line : Byte) (ticks : List Byte) (e : Byte) : List Byte :=
  c ++ bat ++ [line] ++ ticks ++ List.replicate 7 0 ++ [e]

/-- An open frame at position `n`. -/
def openAt (n : BitVec 8) (s : State) : State := { s with sel := true, phase := .active, pos := n }

/-- An acquisition at its last conversion. -/
def atLast (c : Channel) (s : State) : State := { s with ch := c, abusy := true, settle := 1 }

/-- The next state of an outcome. -/
def nextOf : Host.Outcome State Fault Refusal → Option State
  | .next t => some t
  | .fault _ => none
  | .refused _ => none

/-- What an event leaves, read through `f`, with the example parameters. -/
def after {α : Type} (i : Instr) (s : State) (f : State → α) : Option α :=
  (nextOf (execWith ex i s)).map f

/-! Decoding: a word of every row of the opcode map, written out by fields (R81, R83). -/

theorem test_decode_tick : decode 0b0001000000000000#16 = .ok .tick := by decide
theorem test_decode_hbAck : decode 0b0010000000000000#16 = .ok .hbAck := by decide
theorem test_decode_btnPoll : decode 0b0011000000001110#16 = .ok (.btnPoll 0b1110#4) := by decide
theorem test_decode_adcStart : decode 0b0100000000000000#16 = .ok .adcStart := by decide
theorem test_decode_adcDone : decode 0b0101001000000001#16 = .ok (.adcDone 513#10) := by decide
theorem test_decode_selAssert : decode 0b0110000000000000#16 = .ok .selAssert := by decide
theorem test_decode_selDeassert : decode 0b0111000000000000#16 = .ok .selDeassert := by decide
theorem test_decode_spiByte_ovf : decode 0b1000001010100101#16 = .ok (.spiByte true false 0xA5#8) := by
  decide
theorem test_decode_spiByte_wcol : decode 0b1000000110100101#16 = .ok (.spiByte false true 0xA5#8) := by
  decide
theorem test_decode_pwrPoll : decode 0b1001000000000000#16 = .ok .pwrPoll := by decide

/-- EN-10 and EN-11. -/
theorem test_decode_refused :
    [0x0000#16, 0xA000#16, 0xFFFF#16].all (fun w => decode w == .error .reservedOpcode) = true ∧
    [0x1001#16, 0x3010#16, 0x5400#16, 0x8400#16, 0x9800#16].all
      (fun w => decode w == .error .reservedBits) = true := by decide

/-- The table numbers its bits as the event word does; a row of 16 bits. -/
theorem test_decodeTableWord :
    decodeTableWord 16 0x83A5 = some (.spiByte true true 0xA5#8) ∧ decodeTableWord 16 0xF000 = none := by
  decide

/-- At most one row matches any word: the rows differ in the opcode (R83). -/
theorem test_rows_disjoint :
    opcodeTable.Pairwise (fun a b => a.pattern &&& 0xF000#16 ≠ b.pattern &&& 0xF000#16) ∧
    opcodeTable.all (fun a => a.mask &&& 0xF000#16 == 0xF000#16) = true := by decide

/-- `withFetchWord` is what the next step runs: TICK from reset. -/
theorem test_fetch_tick :
    (nextOf (step (State.reset.withFetchWord 16 0x1000))).map (fun t => (t.tick32, t.hb)) =
      some (1#32, 1) := by decide

/-- The expansions of R91: PRESS 0 from PR-1, ACQ from PR-1. -/
theorem test_assemble :
    assemble (.line (.press 0) .done) = some [0x300E#16, 0x300E#16, 0x300F#16, 0x300F#16] ∧
    assemble (.rep 2 (.line (.acq [341]) .done) .done) =
      some [0x4000#16, 0x5155#16, 0x4000#16, 0x5155#16] := by decide

/-! WellFormed: an ill-formed term for each check. -/

theorem test_wf_adcDone :
    (Instr.adcDone 256#10).wf { ex with adcBits := 8, adcFs := 255 } = false ∧
    (Instr.adcDone 255#10).wf { ex with adcBits := 8, adcFs := 255 } = true ∧
    (Instr.adcDone 1023#10).wf ex = true := by decide

theorem test_wf_script :
    [ScriptLine.poll 16, .adone 1024, .byte 256 false false, .frame 256 [], .frame 0 [0, 256],
      .acq [0, 1024], .press 4].all (fun x => !x.wf) = true ∧
    [ScriptLine.poll 15, .adone 1023, .byte 255 true true, .frame 255 [255], .acq [1023],
      .press 3].all ScriptLine.wf = true ∧
    (Script.rep 1 (.line (.poll 16) .done) .done).wf = false := by decide

/-- One broken constraint of R8 in each set. -/
theorem test_wf_params :
    ex.wf = true ∧
    [{ ex with l := 12 }, { ex with l := 256 }, { ex with m := 0 }, { ex with m := 256 },
      { ex with settleN := 0 }, { ex with adcFs := 1022 }, { ex with lowLimit := 0 },
      { ex with lowLimit := 65536 }, { ex with hbThreshold := 65536 },
      { ex with vCeilMv := 65536, dropLoMv := 0, dropHiMv := 0 }, { ex with vrefMv := 65536 },
      { ex with vOffMv := 65536, vOnMv := 65536 }, { ex with vOnMv := 65536 },
      { ex with vOperMv := 65536 }, { ex with dropLoMv := 65536 }, { ex with dropHiMv := 65536 },
      { ex with vOnMv := 2999 }, { ex with dropHiMv := 61036 }].all (fun p => !p.wf) = true ∧
    { ex with l := 13, m := 1, settleN := 1, lowLimit := 65535, hbThreshold := 65535, vOnMv := 3000,
              dropHiMv := 61035 }.wf = true := by decide

/-! One step of each event, from the vectors. -/

/-- TK-4. -/
theorem test_tick_carry :
    after .tick { boot with tb := image [0, 0, 0, 0] [0, 0] 0 [0, 0xFF, 0xFF, 0xFF] 1, hb := 7 }
      (fun t => (t.tick32, t.hb)) = some (0x01000000#32, 8) := by decide

/-- TK-5 and TK-6. -/
theorem test_tick_wraps :
    after .tick
      { boot with tb := image [0, 0, 0, 0] [0, 0] 0 [0xFF, 0xFF, 0xFF, 0xFF] 1, hb := 0xFFFF }
      (fun t => (t.tick32, t.hb, t.err ex, t.outputs)) = some (0#32, 0, 1#8, []) := by decide

/-- TK-8. -/
theorem test_hbAck :
    after .hbAck { boot with hb := 0x123 } (fun t => (t.hb, t.hbDue ex)) = some (0, false) := by decide

/-- DB-1, first poll. -/
theorem test_poll_at_reset :
    after (.btnPoll 0b1110#4) boot (fun t => (t.ab, t.valid, t.tbByte 0, t.tbByte 6)) =
      some (0b1110#4, 0#4, 0#8, 1#8) := by decide

/-- DB-4, second poll. -/
theorem test_poll_saturates :
    after (.btnPoll 14#4)
      { boot with ab := 14#4, valid := 15#4, tb := image [255, 0, 0, 0] [0, 0] 0 [0, 0, 0, 0] 1 }
      (fun t => (t.tbByte 0, t.valid, t.attn)) = some (255#8, 0b1110#4, true) := by decide

/-- AD-1. -/
theorem test_adcStart :
    after .adcStart boot (fun t => (t.abusy, t.settle, t.outputs)) =
      some (true, 0#8, [.convReq .reference]) := by decide

/-- AD-15. -/
theorem test_adcStart_busy :
    after .adcStart (atLast .boardVout boot) (fun t => (t.settle, t.outputs)) = some (1#8, []) := by
  decide

/-- AV-2: the second accepted sample, below the operating threshold. -/
theorem test_adcDone_reference :
    after (.adcDone 251#10)
      (atLast .reference
        { boot with ring := 3300#16 :: List.replicate 39 0, ridx := 1, rcnt := 1, voutMv := 2000 })
      (fun t => (t.batLastMv, t.batAvgMv, [t.tbByte 4, t.tbByte 5, t.ridx, t.rcnt], t.ch)) =
      some (4483#16, 3891#16, [0x0F#8, 0xFB#8, 2#8, 2#8], .boardVout) := by decide

/-- AD-10. -/
theorem test_adcDone_boardVout :
    after (.adcDone 512#10) (atLast .boardVout { boot with batLastMv := 3300 })
      (fun t => (t.voutMv, t.ch, t.settle, t.abusy)) =
      some (1651#16, .reference, 0#8, false) := by decide

/-- The snapshot: reply positions 0 and 10 of DB-7 and PR-3. -/
theorem test_selAssert_snapshot :
    after .selAssert { boot with tb := image [2, 0, 0, 0] [0, 0] 0 [0, 0, 0, 1] 1 }
      (fun t => (t.txbuf[0]?, t.txbuf[10]?, t.txbuf[18]?, t.txbuf[19]?, t.busy)) =
      some (some 2#8, some 1#8, some 1#8, some 0#8, true) := by decide

/-- SP-15. -/
theorem test_selAssert_ignored : after .selAssert (openAt 5 boot) (fun t => t.pos) = some 5#8 := by
  decide

/-- The end of SP-10. -/
theorem test_selDeassert :
    after .selDeassert (openAt 2 { boot with tb := image [3, 0, 0, 0] [0, 0] 0 [0, 0, 0, 0] 1 })
      (fun t => (t.sel, t.phase, t.tbByte 0, t.pos)) = some (false, .idle, 3#8, 2#8) := by decide

/-- SP-1. -/
theorem test_spiByte_mismatch :
    after (.spiByte false false 5#8) (openAt 0 boot)
      (fun t => (t.err ex, t.seq, t.txbuf[19]?, t.pos, t.outputs)) =
      some (0x11#8, 6#8, some 6#8, 1#8, [.miso 0#8, .errEvt]) := by decide

/-- SP-12, the last byte. -/
theorem test_spiByte_clear_wins :
    after (.spiByte false true 0#8)
      (openAt 19 { boot with cmd := 1#8 :: List.replicate 19 0,
                             txbuf := List.replicate 19 0 ++ [2#8] })
      (fun t => (t.err ex, t.txcorrupt, t.phase, t.outputs)) =
      some (1#8, true, .done, [.miso 2#8, .errEvt]) := by decide

/-- PW-1. -/
theorem test_pwrPoll_enters :
    after .pwrPoll { boot with voutMv := 2999, lowcnt := 399 }
      (fun t => (t.lowcnt, t.mode, t.spiEn, t.phase)) =
      some (400#16, .lowPower, false, .idle) := by decide

/-- PW-4. -/
theorem test_pwrPoll_wakes :
    after .pwrPoll
      { boot with voutMv := 3200, lowcnt := 9, seq := 9, mode := .lowPower,
                  tb := image [0, 0, 0, 0] [0, 0] 0 [0, 0, 0, 0] 0x15 }
      (fun t => (t.mode, t.err ex, t.lowcnt, t.seq)) = some (.active, 1#8, 0#16, 9#8) := by decide

/-- TK-9. -/
theorem test_held :
    after .tick (openAt 3 boot) (fun t => (t.tick32, t.hb, t.held)) =
      some (0#32, 0, [0x1000#16]) := by decide

/-- RS-2. -/
theorem test_reset_in_a_frame :
    (nextOf (step { openAt 3 State.reset with events := [.reset], seq := 7 })).map
      (fun t => (t.sel, t.phase, t.seq, t.refused)) = some (false, .idle, 0#8, false) := by decide

/-! Witnesses of the hypotheses of the statements. -/

theorem witness_EncodeInvertsDecode : decode 0x53FF#16 = .ok (.adcDone 1023#10) := by decide

theorem witness_AssembledWordsDecode :
    (Script.line (.frame 255 [0, 255]) .done).wf = true ∧ (Script.line (.poll 16) .done).wf = false ∧
    (∀ c ∈ [0, 255], c ≤ 255) ∧ (∀ r ∈ [0, 1023], r ≤ 1023) := by
  decide

theorem witness_ParameterConstraintsChecked : ex.wf = true ∧ { ex with l := 12 }.wf = false := by decide

/-- The new word, the first and the last of two held words. -/
theorem witness_StepRunsDecodedEvent :
    decode 0x1000#16 = .ok .tick ∧
    ({ boot with events := [.word 0x1000] } : State).events = .word 0x1000#16 :: [] ∧
    ({ boot with events := [.held 0], held := [0x1000, 0x9000] } : State).held[0]? = some 0x1000#16 ∧
    ({ boot with events := [.held 1], held := [0x9000, 0x1000] } : State).held[1]? =
      some 0x1000#16 := by decide

/-- No input at all, and a held event named one past the last. -/
theorem witness_StepWaitsForAnEvent :
    State.reset.events = [] ∧
    ({ boot with events := [.held 1], held := [0x1000] } : State).events = .held 1 :: [] ∧
    ({ boot with events := [.held 1], held := [0x1000] } : State).held.length ≤ 1 := by decide

/-- Opcode 0, the first and the last opcode above the table, and a reserved bit of each format. -/
theorem witness_UndefinedWordIsRefused :
    [0x0FFF#16, 0xA000#16, 0xFFFF#16, 0x9001#16, 0x3010#16, 0x5400#16, 0x8800#16].all
      (fun w => opcodeTable.all fun row => row.selects w == false) = true ∧
    ({ boot with events := [.word 0xA000] } : State).events = .word 0xA000#16 :: [] := by decide

theorem witness_RefusedMarkIsSticky :
    (nextOf (step { State.reset with events := [.word 0] })).map State.refused = some true ∧
    (nextOf (step { State.reset with refused := true, events := [.reset] })).map State.refused =
      some true ∧
    (nextOf (step State.reset)).map State.refused = some false := by decide

theorem witness_ResetSetsEveryRegister :
    ({ openAt 3 boot with events := [.reset] } : State).events = .reset :: [] ∧
    State.reset.AtReset Config.params :=
  ⟨rfl, rfl, rfl, ⟨rfl, rfl⟩, ⟨rfl, rfl, rfl⟩, ⟨rfl, rfl, rfl⟩, ⟨rfl, rfl, rfl⟩,
    ⟨rfl, rfl, rfl, rfl⟩, ⟨rfl, rfl, rfl⟩, rfl, rfl⟩

/-- An open frame, and the three other phases, in which no event is held. -/
theorem witness_NonSerialEventsAreHeld :
    (openAt 0 boot).phase = .active ∧ boot.phase ≠ .active ∧
    ({ boot with phase := .done } : State).phase ≠ .active ∧
    ({ boot with phase := .aborted } : State).phase ≠ .active := by decide

theorem witness_HeldEventsAreDeliveredInAnyOrder :
    Instr.isSerial .pwrPoll = false ∧
    ({ boot with held := [0x1000, 0x9000] } : State).held[1]? = some (encode .pwrPoll) ∧
    ({ boot with events := [.held 1] } : State).events = .held 1 :: [] ∧
    boot.phase ≠ .active ∧ (openAt 0 boot).phase = .active := by decide

theorem witness_HungMasterHoldsTheBlock :
    (openAt 19 boot).phase = .active ∧
    ∀ i ∈ [Instr.tick, .pwrPoll, .adcDone 3, .btnPoll 14, .adcStart, .hbAck], i.isSerial = false := by
  decide

/-- Reset, with every press counter and tick byte at its last value before a wrap too. -/
theorem witness_shape_and_no_open_frame :
    State.reset.Shape Config.params ∧ State.reset.phase ≠ .active ∧
    ({ State.reset with tb := image [255, 255, 255, 255] [0, 0] 1 [255, 255, 255, 255] 1 } :
      State).Shape Config.params := by decide

theorem witness_TickChainsBytesAndHeartbeat :
    State.reset.Shape Config.params ∧ State.reset.phase ≠ .active := by decide

theorem witness_TicksCountModuloTwoToThe32 :
    ({ State.reset with tb := image [0, 0, 0, 0] [0, 0] 0 [255, 255, 255, 255] 1 } : State).Shape
      Config.params ∧ State.reset.phase ≠ .active ∧
    Instr.hbAck ≠ .tick ∧ exec .hbAck { State.reset with hb := 5 } = .next State.reset :=
  ⟨by decide, by decide, by decide, rfl⟩

theorem witness_HeartbeatAcknowledgeZeroes :
    ({ State.reset with hb := 65535 } : State).phase ≠ .active := by decide

/-- An accepted press, an accepted release, and a level that is not accepted. -/
theorem witness_ButtonPollFiltersEachLane :
    ({ State.reset with ab := 0b1101, valid := 0b1110 } : State).Shape Config.params ∧
    ({ State.reset with ab := 0b1101, valid := 0b1110 } : State).phase ≠ .active ∧
    ((0b1101#4).getLsbD 1 = (0b1101#4).getLsbD 1 ∧ (0b1101#4).getLsbD 1 ≠ (0b1110#4).getLsbD 1) ∧
    ((0b1101#4).getLsbD 0 = (0b1101#4).getLsbD 0 ∧ (0b1101#4).getLsbD 0 ≠ (0b1110#4).getLsbD 0) ∧
    ¬((0b1101#4).getLsbD 3 = (0b1101#4).getLsbD 3 ∧ (0b1101#4).getLsbD 3 ≠ (0b1110#4).getLsbD 3) := by
  decide

theorem witness_OnePollGlitchIsIgnored :
    ({ State.reset with ab := 15, valid := 15 } : State).Shape Config.params ∧
    ({ State.reset with ab := 15, valid := 15 } : State).phase ≠ .active ∧
    (0b0111#4).getLsbD 3 ≠ (15#4).getLsbD 3 ∧ (15#4).getLsbD 3 ≠ (0b0111#4).getLsbD 3 := by decide

theorem witness_AdcStartBeginsOrIsIgnored :
    boot.phase ≠ .active ∧ boot.abusy = false ∧ (atLast .reference boot).phase ≠ .active ∧
    (atLast .reference boot).abusy = true := by decide

theorem witness_AdcDoneWhileIdleIsIgnored : boot.phase ≠ .active ∧ boot.abusy = false := by decide

theorem witness_UnsettledConversionRestarts :
    ({ boot with abusy := true } : State).phase ≠ .active ∧
    ({ boot with abusy := true } : State).abusy = true ∧
    ({ boot with abusy := true } : State).settle.toNat + 1 < Config.params.settleN := by decide

/-- The sentinel, the zero code, and the greatest code above the ceiling (AD-5, AD-7, AD-8). -/
theorem witness_RejectedReferenceIsDiscarded :
    (atLast .reference boot).phase ≠ .active ∧ (atLast .reference boot).abusy = true ∧
    (atLast .reference boot).ch = .reference ∧
    ex.settleN ≤ (atLast .reference boot).settle.toNat + 1 ∧
    Config.params.settleN ≤ (atLast .reference boot).settle.toNat + 1 ∧
    (1023#10).toNat = ex.sentinel ∧ (0#10).toNat = 0 ∧
    ex.vCeilMv < ex.adcFs * ex.vrefMv / (250#10).toNat := by decide

/-- The least accepted code (AD-4), with an empty ring and with a full one about to wrap. -/
theorem witness_AcceptedReferenceUpdatesRingMeanAndTelemetry :
    let s := atLast .reference boot
    let f : State := { s with ring := List.replicate 40 4500, ridx := 39, rcnt := 40 }
    ex.wf = true ∧ s.Shape ex ∧ s.RingBounds ex ∧ s.phase ≠ .active ∧ s.abusy = true ∧
    s.ch = .reference ∧ ex.settleN ≤ s.settle.toNat + 1 ∧ (251#10).toNat ≠ ex.sentinel ∧
    (251#10).toNat ≠ 0 ∧ ex.adcFs * ex.vrefMv / (251#10).toNat ≤ ex.vCeilMv ∧ s.RingReadings ex ∧
    f.Shape ex ∧ f.RingBounds ex ∧ f.RingReadings ex :=
  ⟨by decide, by decide, by decide, by decide, rfl, rfl, by decide, by decide, by decide, by decide,
    fun _ he => by rw [List.eq_of_mem_replicate he]; decide, by decide, by decide,
    fun _ he => by rw [List.eq_of_mem_replicate he]; decide⟩

/-- A reading at the ceiling, and one above it, which no run reaches. -/
theorem witness_BoardVoutSampleIsScaledAndStored :
    let s := atLast .boardVout { boot with batLastMv := 4500 }
    let h := atLast .boardVout { boot with batLastMv := 4501 }
    s.phase ≠ .active ∧ s.abusy = true ∧ s.ch = .boardVout ∧
    Config.params.settleN ≤ s.settle.toNat + 1 ∧
    ¬Config.params.vCeilMv < (1023#10).toNat * s.batLastMv.toNat / Config.params.adcFs ∧
    h.phase ≠ .active ∧ h.abusy = true ∧ h.ch = .boardVout ∧
    Config.params.vCeilMv < (1023#10).toNat * h.batLastMv.toNat / Config.params.adcFs := by decide

theorem witness_BoardVoutIsNeverRejected :
    let s := atLast .boardVout { boot with batLastMv := 4500 }
    s.phase ≠ .active ∧ s.abusy = true ∧ s.ch = .boardVout ∧
    Config.params.settleN ≤ s.settle.toNat + 1 ∧ s.ReadingBounds Config.params ∧
    (1023#10).toNat = Config.params.adcFs := by decide

/-- The least settle count, and the greatest the 8-bit counter reaches. -/
theorem witness_SettleGateDiscardsThenProcesses :
    boot.phase ≠ .active ∧ boot.abusy = false ∧
    ([] : List AdcCode).length + 1 = ({ ex with settleN := 1 } : Config.Params).settleN ∧
    (List.replicate 255 (9#10)).length + 1 = ({ ex with settleN := 256 } : Config.Params).settleN ∧
    ({ ex with settleN := 256 } : Config.Params).settleN ≤ 256 :=
  ⟨by decide, by decide, rfl, by rw [List.length_replicate], by decide⟩

/-- A request, and a change of the channel. -/
theorem witness_RequestsNameTheSelectedChannel :
    after .adcStart boot (fun t => requests t.outputs) = some [.reference] ∧
    after (.adcDone 0) (atLast .reference boot) (fun t => (t.muxCh, requests t.outputs)) =
      some (.boardVout, []) ∧ (atLast .reference boot).muxCh = .reference := by decide

theorem witness_OneRequestOutstandingWhileBusy :
    after (.adcDone 0) (atLast .reference boot) State.abusy = some false ∧
    (isAdcDone (.adcDone 0) = true → (atLast .reference boot).abusy = true) := by decide

theorem witness_AnalogPartNeverReportsErrors :
    (Instr.adcStart = .adcStart ∨ ∃ r, Instr.adcStart = .adcDone r) ∧
    (Instr.adcDone 5 = .adcStart ∨ ∃ r, Instr.adcDone 5 = .adcDone r) :=
  ⟨.inl rfl, .inr ⟨5, rfl⟩⟩

/-- The two states differ in the mode. -/
theorem witness_PowerModeDoesNotReachAnalogPart :
    State.reset.mode ≠ .lowPower ∧
    (Instr.adcDone 5 = .adcStart ∨ ∃ r, Instr.adcDone 5 = .adcDone r) :=
  ⟨by decide, .inr ⟨5, rfl⟩⟩

/-- No accepted reading, one, and two in a ring of one entry. -/
theorem witness_MeanIsExactOverLatestReadings :
    let p : Config.Params := { ex with m := 1, settleN := 1 }
    let s := State.resetWith p
    let run := [Instr.adcStart, .adcDone 341, .adcStart, .adcDone 0, .adcStart, .adcDone 251]
    p.wf = true ∧ s.Shape p ∧ s.rcnt = 0 ∧ s.ridx = 0 ∧ (runWith p run s).isSome = true ∧
    acceptedReadings p run s = [3300, 4483] ∧ acceptedReadings p (run.take 2) s = [3300] ∧
    acceptedReadings p (run.take 1) s = [] := by decide

theorem witness_SelectAssertOpensAFrame :
    State.reset.Shape Config.params ∧ State.reset.sel = false ∧ State.reset.mode = .active ∧
    ({ State.reset with mode := .lowPower } : State).Shape Config.params ∧
    ({ State.reset with sel := true } : State).Shape Config.params := by decide

theorem witness_SelectDeassertEndsTheFrame : (openAt 0 boot).sel = true ∧ boot.sel = false := by decide

theorem witness_ByteOutsideAFrameIsIgnored :
    boot.phase = .idle ∧ ({ boot with sel := true, mode := .lowPower } : State).phase = .idle := by
  decide

/-- Position 0, where the id is handled, and the position before the last. -/
theorem witness_ByteInsideAFrame :
    (openAt 0 State.reset).Shape Config.params ∧ (openAt 0 State.reset).phase = .active ∧
    (openAt 0 State.reset).pos.toNat + 1 < Config.params.l ∧
    (openAt 18 State.reset).pos.toNat + 1 < Config.params.l ∧
    ({ openAt 18 State.reset with txcorrupt := true } : State).Shape Config.params := by decide

/-- A declared id of 1, which clears, and another, which does not. -/
theorem witness_LastByteCompletesTheFrame :
    (openAt 19 State.reset).Shape Config.params ∧ (openAt 19 State.reset).phase = .active ∧
    (openAt 19 State.reset).pos.toNat + 1 = Config.params.l ∧
    (openAt 19 State.reset).cmd[0]? ≠ some 1 ∧
    ({ openAt 19 State.reset with cmd := 1#8 :: List.replicate 19 0 } : State).Shape Config.params ∧
    ({ openAt 19 State.reset with cmd := 1#8 :: List.replicate 19 0 } : State).cmd[0]? = some 1 := by
  decide

theorem witness_ByteAfterTheFrameIsOutOfIndex :
    ({ openAt 20 State.reset with phase := .done } : State).Shape Config.params ∧
    ({ openAt 20 State.reset with phase := .done } : State).phase = .done ∧
    ({ openAt 20 State.reset with phase := .aborted } : State).phase = .aborted := by decide

/-- No mismatch recorded before, ids that match, mismatch and reset. -/
theorem witness_SequenceIdLaws :
    let s := openAt 0 { State.reset with seq := 255 }
    s.Shape Config.params ∧ s.phase = .active ∧ s.pos = 0 ∧
    (s.err Config.params).getLsbD 4 = false ∧ (255#8 = s.seq) ∧ (1#8 ≠ 0 ∧ 1#8 ≠ s.seq) := by decide

theorem witness_ErrorStrobePerFaultyByte :
    after (.spiByte true false 0#8) (openAt 1 boot) (fun t => t.outputs.count .errEvt) = some 1 ∧
    after (.spiByte true true 0#8) boot (fun t => t.outputs.count .errEvt) = some 0 := by decide

/-- A bit cleared by each of the three: the last byte of a frame with id 1, a wake, the reset input. -/
theorem witness_OnlyThreeClearsOfErrors :
    let tb := image [0, 0, 0, 0] [0, 0] 0 [0, 0, 0, 0] 0x11
    let s : State := { openAt 19 State.reset with tb := tb, cmd := 1#8 :: List.replicate 19 0, events := [.word 0x8000] }
    let r : State := { State.reset with tb := tb, events := [.reset] }
    s.Shape Config.params ∧ (s.err Config.params).getLsbD 4 = true ∧
    (nextOf (step s)).map (fun t => (t.err Config.params).getLsbD 4) = some false ∧
    r.Shape Config.params ∧ (r.err Config.params).getLsbD 4 = true ∧
    (nextOf (step r)).map (fun t => (t.err Config.params).getLsbD 4) = some false := by decide

theorem witness_FullFrameRepliesTheSnapshot :
    ex.wf = true ∧ boot.Shape ex ∧ boot.sel = false ∧ boot.mode = .active ∧
    (List.replicate 19 (true, 0xFF#8)).length + 1 = ex.l := by decide

/-- One byte only, and one byte short of the frame. -/
theorem witness_IncompleteFrameKeepsItsEffects :
    ex.wf = true ∧ boot.Shape ex ∧ boot.sel = false ∧ boot.mode = .active ∧
    ([] : List (Bool × Bool × Byte)).length + 1 < ex.l ∧
    (List.replicate 18 (false, true, 0xFF#8)).length + 1 < ex.l := by decide

theorem witness_FirstReplyAfterReset : (List.replicate 19 (0#8)).length + 1 = Config.params.l := by
  decide

/-- The entry at the limit, the wake at the threshold, and a poll that is neither. -/
theorem witness_PowerPollDecidesTheMode :
    let s : State := { boot with voutMv := 2999, lowcnt := 399 }
    let w : State := { boot with voutMv := 3200, mode := .lowPower }
    let n : State := { boot with voutMv := 3199, mode := .lowPower }
    ex.wf = true ∧ s.Shape ex ∧ s.phase ≠ .active ∧ s.mode = .active ∧
    s.voutMv.toNat < ex.vOffMv ∧ min (s.lowcnt.toNat + 1) ex.lowLimit = ex.lowLimit ∧
    w.Shape ex ∧ w.phase ≠ .active ∧ w.mode = .lowPower ∧ ex.vOnMv ≤ w.voutMv.toNat ∧
    n.Shape ex ∧ n.phase ≠ .active ∧ ¬ex.vOnMv ≤ n.voutMv.toNat := by decide

/-- The greatest reading a register can hold is at or above the threshold whatever its value is. -/
theorem witness_NonLowPollZeroesTheCount :
    ({ State.reset with voutMv := 0xFFFF } : State).phase ≠ .active ∧
    ({ State.reset with voutMv := 0xFFFF } : State).mode = .active ∧
    Config.params.vOffMv ≤ ({ State.reset with voutMv := 0xFFFF } : State).voutMv.toNat := by
  refine ⟨by decide, rfl, ?_⟩
  show Config.vOffMv.toNat ≤ 65535
  have := Config.vOffMv.isLt
  omega

/-- A poll that wakes whatever the threshold is. -/
theorem witness_WakePollIsNeverLow :
    let s : State := { State.reset with voutMv := 0xFFFF, mode := .lowPower }
    s.Shape Config.params ∧ s.phase ≠ .active ∧ s.mode = .lowPower ∧
    Config.params.vOnMv ≤ s.voutMv.toNat := by
  refine ⟨by decide, by decide, rfl, ?_⟩
  show max Config.vOffMv.toNat Config.vOnRawMv.toNat ≤ 65535
  have := Config.vOffMv.isLt
  have := Config.vOnRawMv.isLt
  omega

/-- No poll, one poll fewer than the limit, and the limit. -/
theorem witness_LowPowerEntryAtTheLimit :
    let s : State := { boot with voutMv := 2999 }
    ex.wf = true ∧ s.phase ≠ .active ∧ s.mode = .active ∧ s.lowcnt = 0 ∧
    s.voutMv.toNat < ex.vOffMv ∧ 0 ≤ ex.lowLimit ∧ 399 ≤ ex.lowLimit ∧ 400 ≤ ex.lowLimit := by decide

theorem witness_RegistersHaveTheirWritersOnly :
    State.reset.Shape Config.params ∧ (nextOf (exec .tick State.reset)).isSome = true := by decide

/-- The invariants at reset, and a step that answers a next state. -/
theorem witness_RingFillsInOrder :
    State.reset.RingFilling Config.params ∧ (nextOf (step State.reset)).isSome = true ∧
    ({ boot with ridx := 0, rcnt := 40 } : State).RingFilling ex := by decide

/-- A state other than reset in which the invariants hold, at the bounds of the ring and the frame. -/
theorem witness_StepKeepsTheInvariants :
    let s : State := { openAt 19 State.reset with hb := 65535, ridx := 39, rcnt := 39, lowcnt := 400 }
    s.Inv Config.params ∧ (nextOf (step s)).isSome = true :=
  ⟨⟨by decide, by decide, by decide, by decide, by decide, by decide, by decide, by decide, by decide,
    by decide⟩, by decide⟩

theorem witness_EveryParameterSetKeepsTheInvariants :
    let s : State := { openAt 19 boot with hb := 65535, ridx := 39, rcnt := 39, lowcnt := 400 }
    ex.wf = true ∧ ex.errNone &&& 0xE1#8 = 0x01#8 ∧
    ({ ex with errNone := 0x1F } : Config.Params).wf = true ∧ 0x1F#8 &&& 0xE1#8 = 0x01#8 ∧
    s.Inv ex ∧ (nextOf (stepWith ex s)).isSome = true :=
  ⟨by decide, by decide, by decide, by decide,
    ⟨by decide, by decide, by decide, by decide, by decide, by decide, by decide, by decide, by decide,
      by decide⟩, by decide⟩

end Sys2Proof.Tests
end

/-! The parameters and the step (spec/00_scope.md): the obligations of its family, each from lemmas
about the check of R8, the delivery of an input, and what every event keeps. -/

namespace Sys2Proof.Machine

/-! The machine of a parameter set (R7, R8). -/

theorem modelOf_isSome (p : Config.Params) : (modelOf p).isSome = true ↔ p.wf = true := by
  unfold modelOf
  by_cases h : p.wf = true <;> simp [h]

/-- Settles O6: `modelOf` asks for `Params.wf`, which is the list of constraints. -/
theorem parameterConstraintsChecked : Obligations.ParameterConstraintsChecked := by
  refine ⟨fun p => ?_, (modelOf_isSome _).2 Config.params_wf, by simp [Config.params]⟩
  rw [modelOf_isSome, Config.Params.wf_iff]
  tauto

/-- The machine's meaning of an event is the parametric one at its own parameters (R7). -/
theorem exec_eq_execWith (i : Instr) (s : State) : exec i s = execWith Config.params i s := by
  cases i <;> rfl

theorem step_eq_stepWith (s : State) : step s = stepWith Config.params s := by
  have h : exec = execWith Config.params := funext₂ exec_eq_execWith
  rw [step, stepWith, h]

theorem runEvents_eq_runWith (is : List Instr) (s : State) :
    runEvents is s = runWith Config.params is s := by
  induction is generalizing s with
  | nil => rfl
  | cons i is ih =>
    rw [runEvents, runWith, exec_eq_execWith]
    cases execWith Config.params i s with
    | next t => simp only [ih]
    | fault r => rfl
    | refused r => rfl

/-- Settles O7, event by event and then along runs. -/
theorem machineIsParametricInstance : Obligations.MachineIsParametricInstance :=
  ⟨exec_eq_execWith, step_eq_stepWith, runEvents_eq_runWith⟩

/-! The delivery of an event word (R10, R86, R301). -/

/-- A delivered word that decodes to an event runs as that event on the state without the input. -/
theorem deliver_of_word {p : Config.Params}
    {run : Instr → State → Host.Outcome State Fault Refusal} {s u : State} {w : EventWord} {i : Instr}
    (hw : s.takeInput = (.word w, u)) (hi : decode w = .ok i) : deliver p run s = run i u := by
  simp [deliver, hw, hi]

/-- Settles O8: both ways of delivering a word end in `deliver_of_word`. -/
theorem stepRunsDecodedEvent : Obligations.StepRunsDecodedEvent := fun _ _ _ _ hi =>
  ⟨fun he => deliver_of_word (State.takeInput_word he) hi,
    fun _ he hk => deliver_of_word (State.takeInput_held he hk) hi⟩

end Sys2Proof.Machine

/-! The invariants of R52 for every admissible parameter set: one lemma for each clause, by the case
split `Effect` of one event; then the reset state and the step. -/

namespace Sys2Proof.Machine

/-! Writes of the telemetry image by one event (R21): the bytes below byte 11, and `ERR` = `TB[L-2]`. -/

theorem State.set_err (p : Config.Params) (s : State) : s.tb.set (p.l - 2) (s.err p) = s.tb := by
  refine List.ext_getElem? fun k => ?_
  rw [List.getElem?_set]
  split
  · next hk =>
    subst hk
    by_cases hl : p.l - 2 < s.tb.length <;> simp [State.err, State.tbByte, hl]
  · rfl

theorem State.clearCounters_getElem? (s : State) {k : Nat} (h : 4 ≤ k) :
    s.clearCounters.tb[k]? = s.tb[k]? := by
  rw [State.clearCounters_eq, State.getElem?_writeTb_ne _ _ (by omega),
    State.getElem?_writeTb_ne _ _ (by omega), State.getElem?_writeTb_ne _ _ (by omega),
    State.getElem?_writeTb_ne _ _ (by omega)]

theorem State.completedTb_length (p : Config.Params) (s : State) :
    (s.completedTb p).length = s.tb.length := by
  unfold State.completedTb
  split <;> simp

/-- Beyond the press counters, completion writes `ERR` alone, and that by the clear rule (R204). -/
theorem State.completedTb_getElem? (p : Config.Params) (s : State) {k : Nat} (h : 4 ≤ k) :
    (s.completedTb p)[k]? =
      (if s.cmd.head? = some 1 then s.tb.set (p.l - 2) p.errNone else s.tb)[k]? := by
  unfold State.completedTb
  rw [State.clearCounters_getElem? _ h]
  split <;> rfl

/-! Steps 1 to 5 of a byte: the lengths of its arrays, and the frame position (R195). -/

theorem State.afterByte_txbuf_length (p : Config.Params) (ovf wcol : Bool) (rx : Byte) (s : State) :
    (s.afterByte p ovf wcol rx).txbuf.length = s.txbuf.length := by
  simp only [State.afterByte]
  split <;> simp

theorem State.afterByte_cmd_length (p : Config.Params) (ovf wcol : Bool) (rx : Byte) (s : State) :
    (s.afterByte p ovf wcol rx).cmd.length = s.cmd.length := by
  simp only [State.afterByte]
  split <;> simp

theorem State.afterByte_of_active (p : Config.Params) (ovf wcol : Bool) (rx : Byte) {s : State}
    (h : s.phase = .active) :
    (s.afterByte p ovf wcol rx).phase = .active ∧ (s.afterByte p ovf wcol rx).pos = s.pos + 1 := by
  simp [State.afterByte, h]

theorem State.afterByte_of_not_active (p : Config.Params) (ovf wcol : Bool) (rx : Byte) {s : State}
    (h : s.phase ≠ .active) :
    (s.afterByte p ovf wcol rx).phase = .aborted ∧ (s.afterByte p ovf wcol rx).pos = s.pos := by
  simp [State.afterByte, h]

/-! The error byte (R28, R212, R260). -/

theorem errIf_and_reserved (c : Bool) {m : Byte} (hm : m &&& 0xE1#8 = 0#8) :
    errIf c m &&& 0xE1#8 = 0#8 := by
  cases c
  · exact BitVec.zero_and
  · exact hm

/-- No SPI_BYTE raises bit 0 or a bit of 7:5 (R28, R261). -/
theorem spiErrors_and_reserved (phase : Phase) (pos : BitVec 8) (seq : Byte) (ovf wcol : Bool)
    (rx : Byte) : spiErrors phase pos seq ovf wcol rx &&& 0xE1#8 = 0#8 := by
  simp only [spiErrors, BitVec.and_or_distrib_right]
  iterate 4 rw [errIf_and_reserved _ rfl]
  rfl

/-- The values an event can leave in `ERR`: the old one, `ERR_NONE`, or the old one with further error
bits (R28, R212, R260). -/
def State.ErrWrites (p : Config.Params) (s : State) (v : Byte) : Prop :=
  v = s.err p ∨ v = p.errNone ∨ ∃ e, e &&& 0xE1#8 = 0#8 ∧ v = s.err p ||| e

/-- Clause (d) of R52 as one mask. -/
theorem errBits_iff_and (b : Byte) :
    (b.getLsbD 0 = true ∧ b.extractLsb' 5 3 = 0) ↔ b &&& 0xE1#8 = 0x01#8 := by
  revert b
  decide

/-- No value an event leaves in `ERR` breaks clause (d). -/
theorem State.ErrWrites.and_reserved {p : Config.Params} {s : State} {v : Byte}
    (hv : s.ErrWrites p v) (hn : p.errNone &&& 0xE1#8 = 0x01#8) (hs : s.err p &&& 0xE1#8 = 0x01#8) :
    v &&& 0xE1#8 = 0x01#8 := by
  rcases hv with rfl | rfl | ⟨e, he, rfl⟩
  · exact hs
  · exact hn
  · rw [BitVec.and_or_distrib_right, hs, he]
    rfl

theorem toNat_ofNat_le {w n k : Nat} (h : n ≤ k) : (BitVec.ofNat w n).toNat ≤ k := by
  rw [BitVec.toNat_ofNat]
  exact (Nat.mod_le _ _).trans h

section Effects

variable {p : Config.Params} {i : Instr} {s t : State}

theorem Effect.tb_length (h : Effect p s i t) : t.tb.length = s.tb.length := by
  cases h
  case tick hl _ => exact hl
  case polled hl _ => exact hl
  case accepted htb _ => rw [htb]; exact (State.average_spec _ _ _).2.1
  case byteTaken => exact List.length_set
  case completed => exact (State.completedTb_length _ _).trans List.length_set
  case woken => exact List.length_set
  all_goals rfl

/-- From byte 11 on, an event writes `ERR` at most (R21, R26). -/
theorem Effect.tb_from_11 (h : Effect p s i t) :
    ∃ v, s.ErrWrites p v ∧ ∀ k, 11 ≤ k → t.tb[k]? = (s.tb.set (p.l - 2) v)[k]? := by
  have same (ks : List Nat) (hks : ∀ j ∈ ks, j < 11) (hf : ∀ k, k ∉ ks → t.tb[k]? = s.tb[k]?) :
      ∃ v, s.ErrWrites p v ∧ ∀ k, 11 ≤ k → t.tb[k]? = (s.tb.set (p.l - 2) v)[k]? := by
    refine ⟨s.err p, .inl rfl, fun k hk => ?_⟩
    rw [State.set_err]
    exact hf k fun hm => Nat.not_lt.2 hk (hks k hm)
  have raised (ovf wcol : Bool) (rx : Byte) :
      s.ErrWrites p (s.err p ||| spiErrors s.phase s.pos s.seq ovf wcol rx) :=
    .inr (.inr ⟨_, spiErrors_and_reserved _ _ _ _ _ _, rfl⟩)
  cases h
  case tick hf => exact same _ (by decide) hf
  case polled hf => exact same _ (by decide) hf
  case accepted htb _ => exact same _ (by decide) (htb ▸ (State.average_spec _ _ _).2.2)
  case woken => exact ⟨p.errNone, .inr (.inl rfl), fun _ _ => rfl⟩
  case byteTaken ovf wcol rx _ _ => exact ⟨_, raised ovf wcol rx, fun _ _ => rfl⟩
  case completed ovf wcol rx _ _ =>
    by_cases hc : (s.quiet.afterByte p ovf wcol rx).cmd.head? = some 1
    · refine ⟨p.errNone, .inr (.inl rfl), fun k hk => ?_⟩
      rw [State.completedTb_getElem? _ _ (by omega), if_pos hc]
      exact congrArg (·[k]?) (List.set_set _)
    · refine ⟨_, raised ovf wcol rx, fun k hk => ?_⟩
      rw [State.completedTb_getElem? _ _ (by omega), if_neg hc]
      rfl
  all_goals exact same [] (by decide) fun _ _ => rfl

/-! The clauses of R52, one by one. -/

theorem Effect.shape (h : Effect p s i t) (hl : 13 ≤ p.l) (hs : s.Shape p) : t.Shape p := by
  obtain ⟨htb, htx, hcmd, hring⟩ := hs
  refine ⟨h.tb_length.trans htb, ?_, ?_, ?_⟩
  · cases h
    case opened =>
      simp only [State.snapshot, List.length_append, List.length_take, List.length_drop, htb, htx]
      omega
    case byteTaken ovf wcol rx _ _ => exact (State.afterByte_txbuf_length p ovf wcol rx _).trans htx
    case completed ovf wcol rx _ _ => exact (State.afterByte_txbuf_length p ovf wcol rx _).trans htx
    all_goals exact htx
  · cases h
    case byteTaken ovf wcol rx _ _ => exact (State.afterByte_cmd_length p ovf wcol rx _).trans hcmd
    case completed ovf wcol rx _ _ => exact (State.afterByte_cmd_length p ovf wcol rx _).trans hcmd
    all_goals exact hcmd
  · cases h
    case accepted => simpa using hring
    all_goals exact hring

theorem Effect.heartbeatWidth (h : Effect p s i t) (hs : s.HeartbeatWidth p) :
    t.HeartbeatWidth p := by
  cases h
  case tick => exact Nat.mod_lt _ (Nat.two_pow_pos _)
  case hbAck => exact Nat.two_pow_pos _
  all_goals exact hs

theorem Effect.ringBounds (h : Effect p s i t) (hm : 1 ≤ p.m) (hs : s.RingBounds p) :
    t.RingBounds p := by
  cases h
  case accepted =>
    refine ⟨toNat_ofNat_le (Nat.min_le_right _ _), ?_⟩
    have hlt : (s.ridx.toNat + 1) % p.m < p.m := Nat.mod_lt _ hm
    exact (toNat_ofNat_le le_rfl).trans_lt hlt
  all_goals exact hs

/-- The position follows the accepted bytes up to `L`, where the frame is done. -/
theorem Effect.positionBounds (h : Effect p s i t) (hl : 13 ≤ p.l ∧ p.l ≤ 255)
    (hs : s.PositionBounds p) : t.PositionBounds p := by
  obtain ⟨hle, hact, hdone⟩ := hs
  cases h
  case opened => exact ⟨Nat.zero_le _, fun _ => (show 0 < 13 by decide).trans_le hl.1, nofun⟩
  case ended => exact ⟨hle, nofun, nofun⟩
  case entered => exact ⟨hle, nofun, nofun⟩
  case woken => exact ⟨hle, nofun, nofun⟩
  case byteTaken ovf wcol rx hi hc =>
    by_cases ha : s.phase = .active
    · obtain ⟨hphase, hpos⟩ := State.afterByte_of_active p ovf wcol rx (s := s.quiet) ha
      have hlt : (s.pos + 1).toNat < p.l := by
        have hne : (s.pos + 1).toNat ≠ p.l := fun h => hc ⟨ha, h⟩
        have hstep : (s.pos + 1).toNat ≤ s.pos.toNat + 1 := Nat.mod_le _ _
        exact lt_of_le_of_ne (hstep.trans (hact ha)) hne
      rw [State.PositionBounds, hphase, hpos]
      exact ⟨hlt.le, fun _ => hlt, nofun⟩
    · obtain ⟨hphase, hpos⟩ := State.afterByte_of_not_active p ovf wcol rx (s := s.quiet) ha
      rw [State.PositionBounds, hphase, hpos]
      exact ⟨hle, nofun, nofun⟩
  case completed ovf wcol rx ha hc =>
    have hpos : (s.quiet.afterByte p ovf wcol rx).pos.toNat = p.l := by
      rw [(State.afterByte_of_active p ovf wcol rx (s := s.quiet) ha).2]
      exact hc
    exact ⟨hpos.le, nofun, fun _ => hpos⟩
  all_goals exact ⟨hle, hact, hdone⟩

theorem Effect.settleBounds (h : Effect p s i t) (hn : 1 ≤ p.settleN) (hs : s.SettleBounds p) :
    t.SettleBounds p := by
  cases h
  case started => exact ⟨fun _ => rfl, hn⟩
  case unsettled hb hlt =>
    exact ⟨fun hf => absurd (hb.symm.trans hf) (by decide), (toNat_ofNat_le le_rfl).trans_lt hlt⟩
  case rejected => exact ⟨fun _ => rfl, hn⟩
  case accepted => exact ⟨fun _ => rfl, hn⟩
  case scaled => exact ⟨fun _ => rfl, hn⟩
  all_goals exact hs

theorem Effect.errBits (h : Effect p s i t) (hl : 13 ≤ p.l) (ht : s.tb.length = p.l - 1)
    (hn : p.errNone &&& 0xE1#8 = 0x01#8) (hs : s.ErrBits p) : t.ErrBits p := by
  obtain ⟨v, hv, htb⟩ := h.tb_from_11
  have herr : t.err p = v := by
    rw [State.err, State.tbByte_of_getElem? (t := t) (s := s.writeTb (p.l - 2) v) (htb _ (by omega))]
    exact State.tbByte_writeTb_same s v (by omega)
  rw [State.ErrBits, errBits_iff_and] at hs ⊢
  rw [herr]
  exact hv.and_reserved hn hs

theorem Effect.reservedZero (h : Effect p s i t) (hs : s.ReservedZero p) : t.ReservedZero p := by
  intro k hk h11
  obtain ⟨v, -, htb⟩ := h.tb_from_11
  rw [← hs k hk h11]
  exact State.tbByte_of_getElem? ((htb k h11).trans (State.getElem?_writeTb_ne s v (by omega)))

theorem State.countLow_le (p : Config.Params) (s : State) : (s.countLow p).toNat ≤ p.lowLimit := by
  unfold State.countLow
  split
  · exact toNat_ofNat_le (Nat.min_le_right _ _)
  · exact Nat.zero_le _

theorem Effect.lowBounds (h : Effect p s i t) (hs : s.LowBounds p) : t.LowBounds p := by
  cases h
  case entered => exact s.countLow_le p
  case woken => exact s.countLow_le p
  case counted => exact s.countLow_le p
  all_goals exact hs

theorem Effect.readingBounds (h : Effect p s i t) (hs : s.ReadingBounds p) : t.ReadingBounds p := by
  obtain ⟨hbat, hvout⟩ := hs
  cases h
  case accepted hr v hv _ _ _ _ =>
    obtain ⟨-, -, hle⟩ := (referenceRejected_eq_false p _).1 hr
    exact ⟨hv ▸ toNat_ofNat_le hle, hvout⟩
  case scaled v hv =>
    refine ⟨hbat, ?_⟩
    rw [hv]
    split
    · exact hvout
    · next hle => exact toNat_ofNat_le (Nat.le_of_not_lt hle)
  all_goals exact ⟨hbat, hvout⟩

theorem Effect.phaseGuard (h : Effect p s i t) (hs : s.PhaseGuard) : t.PhaseGuard := by
  cases h
  case opened hm => exact fun _ => ⟨rfl, hm⟩
  case tracked => exact fun hp => ⟨rfl, (hs hp).2⟩
  case ended => exact fun hp => absurd rfl hp
  case byteTaken hi _ => exact fun _ => hs hi
  case completed ha _ => exact fun _ => hs (by simp [ha])
  case entered => exact fun hp => absurd rfl hp
  case woken => exact fun hp => absurd rfl hp
  all_goals exact hs

/-- Every event keeps the invariants. -/
theorem Effect.inv (h : Effect p s i t) (hw : p.wf = true) (hn : p.errNone &&& 0xE1#8 = 0x01#8)
    (hs : s.Inv p) : t.Inv p := by
  obtain ⟨hl, hm, hsettle, -⟩ := (Config.Params.wf_iff p).1 hw
  exact
    { shape := h.shape hl.1 hs.shape
      heartbeat := h.heartbeatWidth hs.heartbeat
      ring := h.ringBounds hm.1 hs.ring
      position := h.positionBounds hl hs.position
      settle := h.settleBounds hsettle hs.settle
      err := h.errBits hl.1 hs.shape.1 hn hs.err
      reserved := h.reservedZero hs.reserved
      low := h.lowBounds hs.low
      readings := h.readingBounds hs.readings
      phase := h.phaseGuard hs.phase }

end Effects

/-! The reset state and the step. -/

/-- The invariants do not read `REFUSED` or the model's own fields. -/
theorem State.Inv.of_registers {p : Config.Params} {s : State} (h : s.Inv p) (refused : Bool)
    (outputs : List Output) (events : List Input) (held : List EventWord) (draws : Nat) :
    { s with refused := refused, outputs := outputs, events := events, held := held,
             draws := draws }.Inv p :=
  ⟨h.shape, h.heartbeat, h.ring, h.position, h.settle, h.err, h.reserved, h.low, h.readings, h.phase⟩

theorem State.resetWith_err {p : Config.Params} : (State.resetWith p).err p = p.errNone := by
  simp [State.err, State.tbByte, State.resetWith, resetTb]

theorem State.resetWith_inv {p : Config.Params} (hw : p.wf = true)
    (hn : p.errNone &&& 0xE1#8 = 0x01#8) : (State.resetWith p).Inv p := by
  obtain ⟨hl, hm, hsettle, -⟩ := (Config.Params.wf_iff p).1 hw
  exact
    { shape := by simp [State.Shape, State.resetWith, resetTb]; omega
      heartbeat := Nat.two_pow_pos _
      ring := ⟨Nat.zero_le _, hm.1⟩
      position := ⟨Nat.zero_le _, nofun, nofun⟩
      settle := ⟨fun _ => rfl, hsettle⟩
      err := by rw [State.ErrBits, errBits_iff_and, State.resetWith_err]; exact hn
      reserved := fun k hk _ => by
        simp [State.tbByte, State.resetWith, resetTb, List.getElem?_append_left, hk]
      low := Nat.zero_le _
      readings := ⟨Nat.zero_le _, Nat.zero_le _⟩
      phase := fun h => absurd rfl h }

/-- Every step keeps the invariants: it waits, resets, refuses a word, or runs an event. -/
theorem stepWith_inv {p : Config.Params} (hw : p.wf = true) (hn : p.errNone &&& 0xE1#8 = 0x01#8)
    {s t : State} (hs : s.Inv p) (h : stepWith p s = .next t) : t.Inv p := by
  have taken {u : State} {x : Delivery} (hu : s.takeInput = (x, u)) : u.Inv p := by
    rw [State.takeInput_frame hu]
    exact hs.of_registers _ _ _ _ _
  rcases deliver_cases h with ⟨u, hu, rfl⟩ | ⟨u, hu, rfl⟩ | ⟨w, u, e, hu, -, rfl⟩ |
    ⟨w, u, i, hu, -, hx⟩
  · exact (taken hu).of_registers _ _ _ _ _
  · exact (State.resetWith_inv hw hn).of_registers _ _ _ _ _
  · exact (taken hu).of_registers _ _ _ _ _
  · exact (execWith_effect hx).inv hw hn (taken hu)

/-- Settles O54, clause by clause over what one event can do. -/
theorem everyParameterSetKeepsTheInvariants : Obligations.EveryParameterSetKeepsTheInvariants :=
  fun _ hw hn => ⟨State.resetWith_inv hw hn, fun _ _ => stepWith_inv hw hn⟩

end Sys2Proof.Machine

/-! The whole-machine rules (spec/10_state.md): the invariants at the machine's own parameters, the
writers of each register and of each part of the telemetry image, the run-wide mark, the balance of
conversion requests, and the filling of the ring; each by the case split `Effect` of one event. -/

namespace Sys2Proof.Machine

/-! The invariants of R52 at the machine's own parameters. -/

theorem params_errNone_reserved : Config.params.errNone &&& 0xE1#8 = 0x01#8 :=
  rfl

/-- Settles O53, the reset case of the invariants for every parameter set. -/
theorem invariantsHoldAtReset : Obligations.InvariantsHoldAtReset :=
  State.resetWith_inv Config.params_wf params_errNone_reserved

/-- Settles O52, the step case of the invariants for every parameter set. -/
theorem stepKeepsTheInvariants : Obligations.StepKeepsTheInvariants := fun s _ hs h =>
  stepWith_inv Config.params_wf params_errNone_reserved hs (step_eq_stepWith s ▸ h)

/-! The writers of each register (R20, R50): either the event leaves the register as it was, or it is
one of the events its row names. -/

theorem exec_effect {i : Instr} {s t : State} (h : exec i s = .next t) :
    Effect Config.params s i t :=
  execWith_effect (exec_eq_execWith i s ▸ h)

section Writers

variable {p : Config.Params} {i : Instr} {s t : State}

theorem Effect.hb_writers (h : Effect p s i t) : t.hb = s.hb ∨ i = .tick ∨ i = .hbAck := by
  cases h
  case tick => exact .inr (.inl rfl)
  case hbAck => exact .inr (.inr rfl)
  all_goals exact .inl rfl

theorem Effect.debounce_writers (h : Effect p s i t) :
    (t.ab = s.ab ∧ t.valid = s.valid) ∨ ∃ raw, i = .btnPoll raw := by
  cases h
  case polled => exact .inr ⟨_, rfl⟩
  all_goals exact .inl ⟨rfl, rfl⟩

theorem Effect.acquisition_writers (h : Effect p s i t) :
    (t.settle = s.settle ∧ t.abusy = s.abusy) ∨ i = .adcStart ∨ ∃ r, i = .adcDone r := by
  cases h
  case started => exact .inr (.inl rfl)
  case unsettled | rejected | accepted | scaled => exact .inr (.inr ⟨_, rfl⟩)
  all_goals exact .inl ⟨rfl, rfl⟩

theorem Effect.reading_writers (h : Effect p s i t) :
    (t.ch = s.ch ∧ t.batLastMv = s.batLastMv ∧ t.voutMv = s.voutMv ∧ t.batAvgMv = s.batAvgMv ∧
      t.ring = s.ring ∧ t.ridx = s.ridx ∧ t.rcnt = s.rcnt) ∨ ∃ r, i = .adcDone r := by
  cases h
  case rejected | accepted | scaled => exact .inr ⟨_, rfl⟩
  all_goals exact .inl ⟨rfl, rfl, rfl, rfl, rfl, rfl, rfl⟩

theorem Effect.sel_writers (h : Effect p s i t) :
    t.sel = s.sel ∨ i = .selAssert ∨ i = .selDeassert := by
  cases h
  case opened | tracked => exact .inr (.inl rfl)
  case ended => exact .inr (.inr rfl)
  all_goals exact .inl rfl

theorem Effect.phase_writers (h : Effect p s i t) :
    t.phase = s.phase ∨ i = .selAssert ∨ i = .selDeassert ∨
      (∃ ovf wcol rx, i = .spiByte ovf wcol rx) ∨ i = .pwrPoll := by
  cases h
  case opened => exact .inr (.inl rfl)
  case ended => exact .inr (.inr (.inl rfl))
  case byteTaken | completed => exact .inr (.inr (.inr (.inl ⟨_, _, _, rfl⟩)))
  case entered | woken => exact .inr (.inr (.inr (.inr rfl)))
  all_goals exact .inl rfl

theorem Effect.position_writers (h : Effect p s i t) :
    (t.pos = s.pos ∧ t.txbuf = s.txbuf) ∨ i = .selAssert ∨
      ∃ ovf wcol rx, i = .spiByte ovf wcol rx := by
  cases h
  case opened => exact .inr (.inl rfl)
  case byteTaken | completed => exact .inr (.inr ⟨_, _, _, rfl⟩)
  all_goals exact .inl ⟨rfl, rfl⟩

/-- A wake writes `SEQ` only where `REINIT_CLEARS_SEQ` says so (R244). -/
theorem Effect.seq_writers (h : Effect p s i t) :
    t.seq = s.seq ∨ (∃ ovf wcol rx, i = .spiByte ovf wcol rx) ∨
      (i = .pwrPoll ∧ p.reinitClearsSeq = true) := by
  cases h
  case byteTaken | completed => exact .inr (.inl ⟨_, _, _, rfl⟩)
  case woken =>
    by_cases hr : p.reinitClearsSeq = true
    · exact .inr (.inr ⟨rfl, hr⟩)
    · exact .inl (if_neg hr)
  all_goals exact .inl rfl

theorem Effect.cmd_writers (h : Effect p s i t) :
    t.cmd = s.cmd ∨ ∃ ovf wcol rx, i = .spiByte ovf wcol rx := by
  cases h
  case byteTaken | completed => exact .inr ⟨_, _, _, rfl⟩
  all_goals exact .inl rfl

theorem Effect.txcorrupt_writers (h : Effect p s i t) :
    t.txcorrupt = s.txcorrupt ∨ i = .selAssert ∨ (∃ ovf wcol rx, i = .spiByte ovf wcol rx) ∨
      i = .pwrPoll := by
  cases h
  case opened => exact .inr (.inl rfl)
  case byteTaken | completed => exact .inr (.inr (.inl ⟨_, _, _, rfl⟩))
  case woken => exact .inr (.inr (.inr rfl))
  all_goals exact .inl rfl

theorem Effect.power_writers (h : Effect p s i t) :
    (t.mode = s.mode ∧ t.lowcnt = s.lowcnt) ∨ i = .pwrPoll := by
  cases h
  case entered | woken | counted => exact .inr rfl
  all_goals exact .inl ⟨rfl, rfl⟩

/-- No event writes the run-wide mark (R47). -/
theorem Effect.refused_eq (h : Effect p s i t) : t.refused = s.refused := by
  cases h <;> rfl

/-- The events that write byte `k` of the telemetry image, by the part it belongs to (R21). -/
def TbWriter (p : Config.Params) (i : Instr) (k : Nat) : Prop :=
  (k < 4 ∧ ((∃ raw, i = .btnPoll raw) ∨ ∃ ovf wcol rx, i = .spiByte ovf wcol rx)) ∨
  ((k = 4 ∨ k = 5) ∧ ∃ r, i = .adcDone r) ∨
  (k = 6 ∧ ∃ raw, i = .btnPoll raw) ∨
  (7 ≤ k ∧ k ≤ 10 ∧ i = .tick) ∨
  (k = p.l - 2 ∧ ((∃ ovf wcol rx, i = .spiByte ovf wcol rx) ∨ i = .pwrPoll))

theorem Effect.tb_writers (h : Effect p s i t) (k : Nat) :
    t.tb[k]? = s.tb[k]? ∨ TbWriter p i k := by
  have err_alone (hw : (∃ ovf wcol rx, i = .spiByte ovf wcol rx) ∨ i = .pwrPoll)
      (hf : k ≠ p.l - 2 → t.tb[k]? = s.tb[k]?) : t.tb[k]? = s.tb[k]? ∨ TbWriter p i k := by
    by_cases hk : k = p.l - 2
    · exact .inr (.inr (.inr (.inr (.inr ⟨hk, hw⟩))))
    · exact .inl (hf hk)
  cases h
  case tick hf =>
    by_cases hm : k ∈ [10, 9, 8, 7]
    · obtain ⟨hlo, hhi⟩ : 7 ≤ k ∧ k ≤ 10 := by simp at hm; omega
      exact .inr (.inr (.inr (.inr (.inl ⟨hlo, hhi, rfl⟩))))
    · exact .inl (hf k hm)
  case polled hf =>
    by_cases hm : k ∈ [0, 1, 2, 3, 6]
    · obtain hlt | h6 : k < 4 ∨ k = 6 := by simp at hm; omega
      · exact .inr (.inl ⟨hlt, .inl ⟨_, rfl⟩⟩)
      · exact .inr (.inr (.inr (.inl ⟨h6, _, rfl⟩)))
    · exact .inl (hf k hm)
  case accepted htb _ =>
    by_cases hm : k ∈ [4, 5]
    · exact .inr (.inr (.inl ⟨by simpa using hm, _, rfl⟩))
    · exact .inl (htb ▸ (State.average_spec _ _ _).2.2 k hm)
  case woken => exact err_alone (.inr rfl) fun hk => List.getElem?_set_ne hk.symm
  case byteTaken =>
    exact err_alone (.inl ⟨_, _, _, rfl⟩) fun hk => List.getElem?_set_ne hk.symm
  case completed =>
    by_cases hlt : k < 4
    · exact .inr (.inl ⟨hlt, .inr ⟨_, _, _, rfl⟩⟩)
    · refine err_alone (.inl ⟨_, _, _, rfl⟩) fun hk => ?_
      refine (State.completedTb_getElem? _ _ (Nat.le_of_not_lt hlt)).trans ?_
      split
      · exact (List.getElem?_set_ne hk.symm).trans (List.getElem?_set_ne hk.symm)
      · exact List.getElem?_set_ne hk.symm
  all_goals exact .inl rfl

end Writers

/-- Settles O51, register by register: what is not left as it was has one of its writers. -/
theorem registersHaveTheirWritersOnly : Obligations.RegistersHaveTheirWritersOnly := by
  intro i s t _ hx
  have h := exec_effect hx
  simp only [ne_eq, ← not_and_or, ← or_iff_not_imp_left]
  exact ⟨h.hb_writers, h.debounce_writers, h.acquisition_writers, h.reading_writers, h.sel_writers,
    h.phase_writers, h.position_writers, h.seq_writers, h.cmd_writers, h.txcorrupt_writers,
    h.power_writers, h.refused_eq, h.tb_writers⟩

/-! The run-wide mark (R47, R88). -/

theorem State.takeInput_refused {s u : State} {x : Delivery} (h : s.takeInput = (x, u)) :
    u.refused = s.refused := by
  rw [State.takeInput_frame h]

@[simp] theorem State.applyReset_refused (p : Config.Params) (s : State) :
    (s.applyReset p).refused = s.refused := rfl

/-- Settles O11: of the four things a step can do, refusing a word alone writes the mark. -/
theorem refusedMarkIsSticky : Obligations.RefusedMarkIsSticky := by
  intro s t h
  rcases deliver_cases h with ⟨u, hu, rfl⟩ | ⟨u, hu, rfl⟩ | ⟨w, u, e, hu, he, rfl⟩ |
    ⟨w, u, i, hu, hi, hx⟩
  · simp [hu, State.takeInput_refused hu]
  · simp [hu, State.takeInput_refused hu]
  · exact iff_of_true rfl (.inr ⟨w, u, e, hu, he⟩)
  · simp [hu, hi, (exec_effect hx).refused_eq, State.takeInput_refused hu]

/-! The balance of conversion requests (R33, R140, R142, R157). -/

/-- The outputs of a byte are its reply and the strobe; neither requests a conversion. -/
theorem requests_afterByte (p : Config.Params) (ovf wcol : Bool) (rx : Byte) (s : State) :
    requests (s.afterByte p ovf wcol rx).outputs = requests s.outputs := by
  simp only [State.afterByte]
  split <;> simp [requests]

theorem isAdcDone_iff (i : Instr) : isAdcDone i = true ↔ ∃ r, i = .adcDone r := by
  cases i <;> simp [isAdcDone, adcCode]

/-- Requests emitted and one outstanding before are one outstanding after and the result consumed, where
one is outstanding while `ABUSY` is set; a held ADC_DONE consumes none. -/
def RequestsBalance (i : Instr) (s t : State) : Prop :=
  (requests t.outputs).length + (if s.abusy then 1 else 0) =
    (if t.abusy then 1 else 0) + (if isAdcDone i = true ∧ s.phase ≠ .active then 1 else 0)

/-- Either an event leaves `ABUSY` alone, requesting and consuming nothing, or it requests the first
conversion of an acquisition, answers one result by one more request, or consumes the last result. -/
theorem Effect.requests_balance {p : Config.Params} {i : Instr} {s t : State} (h : Effect p s i t)
    (ha : isAdcDone i = true → s.abusy = true) : RequestsBalance i s t := by
  have untouched (hr : requests t.outputs = []) (hb : t.abusy = s.abusy)
      (hc : ¬(isAdcDone i = true ∧ s.phase ≠ .active)) : RequestsBalance i s t := by
    rw [RequestsBalance, hr, hb, if_neg hc, List.length_nil, Nat.zero_add, Nat.add_zero]
  have consumed (hp : s.phase ≠ .active) (hb : s.abusy = true) (hi : ∃ r, i = .adcDone r)
      (hr : requests t.outputs = []) (ht : t.abusy = false) : RequestsBalance i s t := by
    simp [RequestsBalance, isAdcDone_iff, hp, hb, hi, hr, ht]
  cases h
  case held hp _ => exact untouched rfl rfl fun hc => hc.2 hp
  case started hb => simp [RequestsBalance, requests, isAdcDone_iff, hb]
  case doneIgnored hb => exact absurd ((ha rfl).symm.trans hb) (by decide)
  case unsettled hp hb _ => simp [RequestsBalance, requests, isAdcDone_iff, hp, hb]
  case rejected hp hb _ _ _ => exact consumed hp hb ⟨_, rfl⟩ rfl rfl
  case accepted hp hb _ _ _ _ _ _ _ _ _ => exact consumed hp hb ⟨_, rfl⟩ rfl rfl
  case scaled hp hb _ _ _ _ => exact consumed hp hb ⟨_, rfl⟩ rfl rfl
  case byteTaken => exact untouched (requests_afterByte p ..) rfl (by simp [isAdcDone_iff])
  case completed => exact untouched (requests_afterByte p ..) rfl (by simp [isAdcDone_iff])
  all_goals exact untouched rfl rfl (by simp [isAdcDone_iff])

/-- Settles O31, event by event. -/
theorem oneRequestOutstandingWhileBusy : Obligations.OneRequestOutstandingWhileBusy :=
  fun _ _ _ hx ha => (exec_effect hx).requests_balance ha

/-! The filling of the ring (R37, R170). -/

/-- A property of the registers but `REFUSED` that holds at reset and is kept by every event is kept by
every step: waiting and refusing a word write none of these registers. -/
theorem stepWith_keeps {p : Config.Params} {P : State → Prop}
    (registers : ∀ s refused outputs events held draws, P s →
      P { s with refused := refused, outputs := outputs, events := events, held := held,
                 draws := draws })
    (reset : P (State.resetWith p)) (event : ∀ i s t, Effect p s i t → P s → P t)
    {s t : State} (hs : P s) (h : stepWith p s = .next t) : P t := by
  have taken {u : State} {x : Delivery} (hu : s.takeInput = (x, u)) : P u := by
    rw [State.takeInput_frame hu]
    exact registers _ _ _ _ _ _ hs
  rcases deliver_cases h with ⟨u, hu, rfl⟩ | ⟨u, -, rfl⟩ | ⟨w, u, e, hu, -, rfl⟩ |
    ⟨w, u, i, hu, -, hx⟩
  · exact registers _ _ _ _ _ _ (taken hu)
  · exact registers _ _ _ _ _ _ reset
  · exact registers _ _ _ _ _ _ (taken hu)
  · exact event _ _ _ (execWith_effect hx) (taken hu)

theorem State.resetWith_ringFilling {p : Config.Params} (hm : 1 ≤ p.m) :
    (State.resetWith p).RingFilling p :=
  ⟨⟨Nat.zero_le _, hm⟩, fun _ => rfl⟩

/-- A push advances index and count together while the ring stays short of full: the index wraps only
when the count reaches `M`. -/
theorem Effect.ringFilling {p : Config.Params} {i : Instr} {s t : State} (h : Effect p s i t)
    (hm : 1 ≤ p.m ∧ p.m ≤ 255) (hs : s.RingFilling p) : t.RingFilling p := by
  refine ⟨h.ringBounds hm.1 hs.1, ?_⟩
  obtain ⟨-, hfill⟩ := hs
  cases h
  case accepted =>
    intro hlt
    have hcount : (BitVec.ofNat 8 (min (s.rcnt.toNat + 1) p.m)).toNat =
        min (s.rcnt.toNat + 1) p.m := by
      rw [BitVec.toNat_ofNat]
      omega
    have hroom : s.rcnt.toNat + 1 < p.m := by
      simp only [hcount] at hlt
      omega
    simp only [hfill (by omega), Nat.mod_eq_of_lt hroom, Nat.min_eq_left hroom.le]
  all_goals exact hfill

/-- Settles O55: at reset both counters are 0, and every event keeps the filling order. -/
theorem ringFillsInOrder : Obligations.RingFillsInOrder := by
  obtain ⟨-, hm, -⟩ := (Config.Params.wf_iff _).1 Config.params_wf
  refine ⟨State.resetWith_ringFilling hm.1, fun s t hs h => ?_⟩
  exact stepWith_keeps (P := (State.RingFilling Config.params ·)) (fun _ _ _ _ _ _ hP => hP)
    (State.resetWith_ringFilling hm.1) (fun _ _ _ he => he.ringFilling hm) hs
    (step_eq_stepWith s ▸ h)

end Sys2Proof.Machine

/-! The event word (spec/30_encoding.md): the row of an event as its opcode and its operand field, the
operands of an event read from a word, the decoder as a choice of rows, and the scripts as events; then
the obligations of the family. -/

namespace Sys2Proof

/-! The two parts of a row (R80 to R83): the opcode, and the reserved bits between it and the operands. -/

/-- `OP` of each event (R83). -/
def Instr.opcode : Instr → BitVec 4
  | .tick => 0x1
  | .hbAck => 0x2
  | .btnPoll _ => 0x3
  | .adcStart => 0x4
  | .adcDone _ => 0x5
  | .selAssert => 0x6
  | .selDeassert => 0x7
  | .spiByte _ _ _ => 0x8
  | .pwrPoll => 0x9

/-- The number of low bits that hold the operands of an event; the bits from there up to bit 11 are
reserved (R81, R82). -/
def Instr.operandBits : Instr → Nat
  | .btnPoll _ => 4
  | .adcDone _ => 10
  | .spiByte _ _ _ => 10
  | .tick | .hbAck | .adcStart | .selAssert | .selDeassert | .pwrPoll => 0

theorem Instr.row_mask (i : Instr) : i.row.mask = BitVec.allOnes 16 <<< i.operandBits := by
  cases i <;> simp [Instr.row, Instr.operandBits]

theorem Instr.row_pattern (i : Instr) : i.row.pattern = i.opcode ++ 0#12 := by
  cases i <;> simp [Instr.row, Instr.opcode]

theorem Instr.operandBits_le (i : Instr) : i.operandBits ≤ 12 := by
  cases i <;> simp [Instr.operandBits]

/-- Opcodes 1 to 9 are all defined (R83). -/
theorem Instr.exists_opcode_eq (op : BitVec 4) (hpos : 1 ≤ op.toNat) (hle : op.toNat ≤ 9) :
    ∃ i : Instr, i.opcode = op := by
  have hdefined : ∀ op : BitVec 4, 1 ≤ op.toNat → op.toNat ≤ 9 →
      ∃ i ∈ [Instr.tick, .hbAck, .btnPoll 0, .adcStart, .adcDone 0, .selAssert, .selDeassert,
        .spiByte false false 0, .pwrPoll], i.opcode = op := by decide
  obtain ⟨i, -, hi⟩ := hdefined op hpos hle
  exact ⟨i, hi⟩

theorem Instr.row_mem_opcodeTable (i : Instr) : i.row ∈ opcodeTable := by
  cases i <;> simp [opcodeTable, Instr.row]

theorem exists_row_eq_of_mem_opcodeTable {row : OpcodeRow} (h : row ∈ opcodeTable) :
    ∃ i : Instr, i.row = row := by
  simp only [opcodeTable, List.mem_cons, List.not_mem_nil, or_false] at h
  rcases h with h | h | h | h | h | h | h | h | h <;> exact ⟨_, h.symm⟩

theorem opcodeOf_toNat (w : EventWord) : (opcodeOf w).toNat = w.toNat / 4096 := by
  rw [opcodeOf, BitVec.extractLsb'_toNat, Nat.shiftRight_eq_div_pow]
  omega

/-- A mask of the bits from `n` up keeps the opcode and the reserved bits: with `q` the word without its
low `n` bits, both sides say `q = op * 2 ^ (12 - n)`. -/
theorem and_mask_eq_iff (w : EventWord) (op : BitVec 4) {n : Nat} (hn : n ≤ 12) :
    w &&& BitVec.allOnes 16 <<< n = op ++ 0#12 ↔
      opcodeOf w = op ∧ w.extractLsb' n (12 - n) = 0#(12 - n) := by
  have hsplit : 2 ^ n * 2 ^ (12 - n) = 4096 := by
    rw [← pow_add, Nat.add_sub_cancel' hn]
    rfl
  have hmasked : (w &&& BitVec.allOnes 16 <<< n).toNat = w.toNat / 2 ^ n * 2 ^ n := by
    rw [← BitVec.shiftLeft_ushiftRight, BitVec.toNat_shiftLeft, BitVec.toNat_ushiftRight,
      Nat.shiftLeft_eq, Nat.shiftRight_eq_div_pow,
      Nat.mod_eq_of_lt ((Nat.div_mul_le_self _ _).trans_lt w.isLt)]
  have hpattern : (op ++ 0#12).toNat = op.toNat * 2 ^ (12 - n) * 2 ^ n := by
    rw [Nat.mul_assoc, Nat.mul_comm (2 ^ (12 - n)), hsplit, BitVec.toNat_append, Nat.shiftLeft_eq]
    exact Nat.or_zero _
  have hop : (opcodeOf w).toNat = w.toNat / 2 ^ n / 2 ^ (12 - n) := by
    rw [opcodeOf_toNat, Nat.div_div_eq_div_mul, hsplit]
  have hreserved : (w.extractLsb' n (12 - n)).toNat = w.toNat / 2 ^ n % 2 ^ (12 - n) := by
    rw [BitVec.extractLsb'_toNat, Nat.shiftRight_eq_div_pow]
  rw [← BitVec.toNat_inj, hmasked, hpattern, Nat.mul_left_inj (Nat.two_pow_pos n).ne',
    ← BitVec.toNat_inj, ← BitVec.toNat_inj, hop, hreserved, BitVec.toNat_ofNat, Nat.zero_mod]
  constructor
  · intro h
    simp [h]
  · rintro ⟨h, h0⟩
    rw [← h, Nat.div_mul_cancel (Nat.dvd_of_mod_eq_zero h0)]

/-- A word selects the row of an event when it has the event's opcode and no reserved bit set. -/
theorem Instr.row_selects_iff (i : Instr) (w : EventWord) :
    i.row.selects w = true ↔
      opcodeOf w = i.opcode ∧
        w.extractLsb' i.operandBits (12 - i.operandBits) = 0#(12 - i.operandBits) := by
  rw [OpcodeRow.selects, beq_iff_eq, i.row_mask, i.row_pattern, and_mask_eq_iff _ _ i.operandBits_le]

theorem Instr.row_selects_encode (i : Instr) : i.row.selects (encode i) = true :=
  match i with
  | .tick => Laws.EncodingRow.tick
  | .hbAck => Laws.EncodingRow.hbAck
  | .btnPoll raw => Laws.EncodingRow.btnPoll raw
  | .adcStart => Laws.EncodingRow.adcStart
  | .adcDone r => Laws.EncodingRow.adcDone r
  | .selAssert => Laws.EncodingRow.selAssert
  | .selDeassert => Laws.EncodingRow.selDeassert
  | .spiByte ovf wcol rx => Laws.EncodingRow.spiByte ovf wcol rx
  | .pwrPoll => Laws.EncodingRow.pwrPoll

/-! The operands of an event and the bits of its word (R82). -/

/-- The event of the same row with the operands a word holds. -/
def Instr.withOperands (w : EventWord) : Instr → Instr
  | .btnPoll _ => .btnPoll (w.extractLsb' 0 4)
  | .adcDone _ => .adcDone (w.extractLsb' 0 10)
  | .spiByte _ _ _ => .spiByte (w.getLsbD 9) (w.getLsbD 8) (w.extractLsb' 0 8)
  | .tick => .tick
  | .hbAck => .hbAck
  | .adcStart => .adcStart
  | .selAssert => .selAssert
  | .selDeassert => .selDeassert
  | .pwrPoll => .pwrPoll

@[simp] theorem Instr.row_withOperands (w : EventWord) (i : Instr) :
    (i.withOperands w).row = i.row := by
  cases i <;> rfl

@[simp] theorem Instr.withOperands_withOperands (v w : EventWord) (i : Instr) :
    (i.withOperands v).withOperands w = i.withOperands w := by
  cases i <;> rfl

theorem extractLsb'_encode_btnPoll (raw : Buttons) :
    (encode (.btnPoll raw)).extractLsb' 0 4 = raw := by
  ext k hk
  interval_cases k <;> simp [encode]

theorem extractLsb'_encode_adcDone (r : AdcCode) :
    (encode (.adcDone r)).extractLsb' 0 10 = r := by
  ext k hk
  interval_cases k <;> simp [encode]

theorem extractLsb'_encode_spiByte (ovf wcol : Bool) (rx : Byte) :
    (encode (.spiByte ovf wcol rx)).extractLsb' 0 8 = rx := by
  ext k hk
  interval_cases k <;> simp [encode]

theorem getLsbD_encode_spiByte (ovf wcol : Bool) (rx : Byte) :
    (encode (.spiByte ovf wcol rx)).getLsbD 9 = ovf ∧
      (encode (.spiByte ovf wcol rx)).getLsbD 8 = wcol := by
  simp [encode]

/-- The word of an event holds the event's operands. -/
theorem Instr.withOperands_encode (i : Instr) : i.withOperands (encode i) = i := by
  cases i
  case btnPoll raw => rw [Instr.withOperands, extractLsb'_encode_btnPoll]
  case adcDone r => rw [Instr.withOperands, extractLsb'_encode_adcDone]
  case spiByte ovf wcol rx =>
    obtain ⟨hovf, hwcol⟩ := getLsbD_encode_spiByte ovf wcol rx
    rw [Instr.withOperands, extractLsb'_encode_spiByte, hovf, hwcol]
  all_goals rfl

/-- Encoding the operands of a word keeps the word's unmasked bits. -/
theorem encode_withOperands (i : Instr) (w : EventWord) :
    encode (i.withOperands w) = i.row.pattern ||| (w &&& ~~~i.row.mask) := by
  cases i
  case btnPoll | adcDone | spiByte =>
    ext k hk
    interval_cases k <;> simp [encode, Instr.withOperands, Instr.row]
  all_goals simp [encode, Instr.withOperands, Instr.row]

theorem encode_withOperands_of_selects {i : Instr} {w : EventWord} (h : i.row.selects w = true) :
    encode (i.withOperands w) = w := by
  rw [OpcodeRow.selects, beq_iff_eq] at h
  rw [encode_withOperands, ← h, ← BitVec.and_or_distrib_left, BitVec.or_not_self, BitVec.and_allOnes]

/-! The decoder (R86). -/

theorem unlessReserved_eq_ok {n : Nat} {reserved : BitVec n} {i j : Instr} :
    unlessReserved reserved i = .ok j ↔ reserved = 0#n ∧ i = j := by
  by_cases h : reserved = 0#n <;> simp [unlessReserved, h]

theorem unlessReserved_ne_reservedOpcode {n : Nat} (reserved : BitVec n) (i : Instr) :
    unlessReserved reserved i ≠ .error .reservedOpcode := by
  by_cases h : reserved = 0#n <;> simp [unlessReserved, h]

/-- The decoder at a defined opcode. -/
theorem decode_of_opcode {w : EventWord} {i : Instr} (h : opcodeOf w = i.opcode) :
    decode w =
      unlessReserved (w.extractLsb' i.operandBits (12 - i.operandBits)) (i.withOperands w) := by
  rw [decode, h]
  cases i <;> rfl

/-- The decoder refuses the opcode exactly where no event has it. -/
theorem decode_eq_reservedOpcode_iff (w : EventWord) :
    decode w = .error .reservedOpcode ↔ (opcodeOf w).toNat = 0 ∨ 10 ≤ (opcodeOf w).toNat := by
  constructor
  · intro h
    by_contra hop
    obtain ⟨i, hi⟩ := Instr.exists_opcode_eq (opcodeOf w) (by omega) (by omega)
    rw [decode_of_opcode hi.symm] at h
    exact unlessReserved_ne_reservedOpcode _ _ h
  · intro hop
    unfold decode
    split
    case h_10 => rfl
    all_goals omega

/-- A word decodes to an event exactly when it selects the event's row and holds its operands. -/
theorem decode_eq_ok_iff (w : EventWord) (i : Instr) :
    decode w = .ok i ↔ i.row.selects w = true ∧ i = i.withOperands w := by
  constructor
  · intro h
    have hop : ¬((opcodeOf w).toNat = 0 ∨ 10 ≤ (opcodeOf w).toNat) := by
      rw [← decode_eq_reservedOpcode_iff, h]
      nofun
    obtain ⟨j, hj⟩ := Instr.exists_opcode_eq (opcodeOf w) (by omega) (by omega)
    rw [decode_of_opcode hj.symm, unlessReserved_eq_ok] at h
    obtain ⟨hreserved, rfl⟩ := h
    rw [Instr.row_withOperands, Instr.withOperands_withOperands]
    exact ⟨(j.row_selects_iff w).2 ⟨hj.symm, hreserved⟩, rfl⟩
  · rintro ⟨hrow, hi⟩
    obtain ⟨hop, hreserved⟩ := (i.row_selects_iff w).1 hrow
    rw [decode_of_opcode hop, unlessReserved_eq_ok]
    exact ⟨hreserved, hi.symm⟩

/-- A word is an event exactly when some row of the opcode map selects it (R83, R86). -/
theorem exists_decode_eq_ok_iff (w : EventWord) :
    (∃ i, decode w = .ok i) ↔ ∃ row ∈ opcodeTable, row.selects w = true := by
  constructor
  · rintro ⟨i, hi⟩
    exact ⟨i.row, i.row_mem_opcodeTable, ((decode_eq_ok_iff w i).1 hi).1⟩
  · rintro ⟨row, hmem, hrow⟩
    obtain ⟨i, rfl⟩ := exists_row_eq_of_mem_opcodeTable hmem
    exact ⟨i.withOperands w, (decode_eq_ok_iff _ _).2 (by simpa using hrow)⟩

theorem exists_decode_eq_error_iff (w : EventWord) :
    (∃ e, decode w = .error e) ↔ ∀ row ∈ opcodeTable, row.selects w = false := by
  have hok := exists_decode_eq_ok_iff w
  simp only [← Bool.not_eq_true]
  cases hd : decode w <;> simpa [hd] using hok

/-- Settles O1: the word of an event selects the event's row and holds its operands. -/
theorem decodeInvertsEncode : Obligations.DecodeInvertsEncode := fun i =>
  (decode_eq_ok_iff _ i).2 ⟨i.row_selects_encode, i.withOperands_encode.symm⟩

/-- Settles O2: a row's mask and the operand bits make up the whole word. -/
theorem encodeInvertsDecode : Obligations.EncodeInvertsDecode := by
  intro w i h
  obtain ⟨hrow, hi⟩ := (decode_eq_ok_iff w i).1 h
  rw [hi]
  exact encode_withOperands_of_selects hrow

/-- The two round trips together: each event has one word. -/
theorem decode_eq_ok_iff_eq_encode (w : EventWord) (i : Instr) : decode w = .ok i ↔ w = encode i :=
  ⟨fun h => (encodeInvertsDecode w i h).symm, fun h => h ▸ decodeInvertsEncode i⟩

theorem decode_eq_reservedBits_iff (w : EventWord) :
    decode w = .error .reservedBits ↔
      1 ≤ (opcodeOf w).toNat ∧ (opcodeOf w).toNat ≤ 9 ∧
        ∀ row ∈ opcodeTable, row.selects w = false := by
  have hop := decode_eq_reservedOpcode_iff w
  rw [← exists_decode_eq_error_iff]
  rcases hd : decode w with (_ | _) | i <;> simp [hd] at hop ⊢ <;> omega

/-- Settles O3: without operands an event has its one word, with operands its row and their fields; the
two refusals divide the words no row selects. -/
theorem decoderIsTotalAndByFields : Obligations.DecoderIsTotalAndByFields := by
  intro w
  have oneWord (i : Instr) : decode w = .ok i ↔ w = encode i := decode_eq_ok_iff_eq_encode w i
  rw [← opcodeOf_toNat]
  refine ⟨oneWord .tick, oneWord .hbAck, fun raw => ?_, oneWord .adcStart, fun r => ?_,
    oneWord .selAssert, oneWord .selDeassert, fun ovf wcol rx => ?_, oneWord .pwrPoll,
    decode_eq_reservedOpcode_iff w, decode_eq_reservedBits_iff w⟩
  · simp [decode_eq_ok_iff, OpcodeRow.selects, Instr.row, Instr.withOperands]
  · simp [decode_eq_ok_iff, OpcodeRow.selects, Instr.row, Instr.withOperands]
  · simp [decode_eq_ok_iff, OpcodeRow.selects, Instr.row, Instr.withOperands]
    tauto

/-! Scripts (R90, R91). -/

/-- The events of one script line in order. -/
def ScriptLine.events : ScriptLine → List Instr
  | .tick => [.tick]
  | .hback => [.hbAck]
  | .poll raw => [.btnPoll (BitVec.ofNat 4 raw)]
  | .astart => [.adcStart]
  | .adone r => [.adcDone (BitVec.ofNat 10 r)]
  | .sela => [.selAssert]
  | .seld => [.selDeassert]
  | .byte v ovf wcol => [.spiByte ovf wcol (BitVec.ofNat 8 v)]
  | .ppoll => [.pwrPoll]
  | .frame s cs =>
    .selAssert :: (s :: cs).map (fun c => .spiByte false false (BitVec.ofNat 8 c)) ++ [.selDeassert]
  | .acq rs => .adcStart :: rs.map fun r => .adcDone (BitVec.ofNat 10 r)
  | .press b =>
    [.btnPoll (BitVec.ofNat 4 (pressMask b)), .btnPoll (BitVec.ofNat 4 (pressMask b)),
      .btnPoll 15, .btnPoll 15]
  | .ticks n => List.replicate n .tick

/-- The words of a script line are those of its events. -/
theorem ScriptLine.words_eq (x : ScriptLine) : x.words = x.events.map encode := by
  cases x
  case frame | acq =>
    simp [ScriptLine.words, ScriptLine.events, asmByte, asmAdone, Function.comp_def]
  case ticks => exact List.map_replicate.symm
  all_goals rfl

theorem ScriptLine.map_decode_words (x : ScriptLine) :
    x.words.map decode = x.events.map .ok := by
  rw [x.words_eq, List.map_map]
  exact List.map_congr_left fun i _ => decodeInvertsEncode i

theorem Script.exists_decode_eq_ok (script : Script) :
    ∀ w ∈ script.words, ∃ i, decode w = .ok i := by
  induction script with
  | done => nofun
  | line x rest ih =>
    intro w hw
    rcases List.mem_append.1 hw with hx | hrest
    · rw [x.words_eq] at hx
      obtain ⟨i, -, rfl⟩ := List.mem_map.1 hx
      exact ⟨i, decodeInvertsEncode i⟩
    · exact ih w hrest
  | rep n body rest ihBody ihRest =>
    intro w hw
    rcases List.mem_append.1 hw with hbody | hrest
    · obtain ⟨ws, hws, hw⟩ := List.mem_flatten.1 hbody
      exact ihBody w (List.eq_of_mem_replicate hws ▸ hw)
    · exact ihRest w hrest

/-- The press mask of a button has that button's lane alone at 0 (R91). -/
theorem getLsbD_pressMask :
    ∀ b ≤ 3, ∀ k < 4, (BitVec.ofNat 4 (pressMask b)).getLsbD k = decide (k ≠ b) := by
  decide

theorem assemble_eq_some_iff (s : Script) (ws : List EventWord) :
    assemble s = some ws ↔ s.wf = true ∧ s.words = ws := by
  by_cases h : s.wf = true <;> simp [assemble, h]

/-- Settles O5: the ranges as `ScriptLine.wf` gives them, and the words of a line by its events. -/
theorem assembledWordsDecode : Obligations.AssembledWordsDecode := by
  refine ⟨by simp [ScriptLine.wf], ?_, ⟨?_, ?_, ?_, ?_⟩, fun script => ⟨fun h => ?_, fun h => ?_⟩⟩
  · simp only [ScriptLine.map_decode_words]
    simp [ScriptLine.events]
  · intro v _ cs _
    simp [ScriptLine.map_decode_words, ScriptLine.events]
  · intro rs _
    simp [ScriptLine.map_decode_words, ScriptLine.events]
  · intro b hb
    exact ⟨_, getLsbD_pressMask b hb, (ScriptLine.press b).map_decode_words⟩
  · intro n
    simp [ScriptLine.map_decode_words, ScriptLine.events]
  · exact ⟨_, (assemble_eq_some_iff _ _).2 ⟨h, rfl⟩, script.exists_decode_eq_ok⟩
  · simp [assemble, h]

/-- Settles O56: both `Script.wf` and `Script.words` go line by line. -/
theorem scriptsAssembleLineByLine : Obligations.ScriptsAssembleLineByLine := by
  refine ⟨rfl, fun x rest ws => ?_, fun n body rest ws => ?_⟩
  · simp only [assemble_eq_some_iff, Script.wf, Script.words, Bool.and_eq_true]
    constructor
    · rintro ⟨⟨hx, hrest⟩, rfl⟩
      exact ⟨hx, _, ⟨hrest, rfl⟩, rfl⟩
    · rintro ⟨hx, _, ⟨hrest, rfl⟩, rfl⟩
      exact ⟨⟨hx, hrest⟩, rfl⟩
  · simp only [assemble_eq_some_iff, Script.wf, Script.words, Bool.and_eq_true]
    constructor
    · rintro ⟨⟨hbody, hrest⟩, rfl⟩
      exact ⟨_, _, ⟨hbody, rfl⟩, ⟨hrest, rfl⟩, rfl⟩
    · rintro ⟨_, _, ⟨hbody, rfl⟩, ⟨hrest, rfl⟩, rfl⟩
      exact ⟨⟨hbody, hrest⟩, rfl⟩

/-- Settles O4: the words by evaluation, their events by the round trip. -/
theorem encodingExamples : Obligations.EncodingExamples :=
  ⟨by decide, by decide, by decide, by decide, decodeInvertsEncode (.spiByte false false 0x01#8),
    decodeInvertsEncode (.spiByte true true 0xA5#8), decodeInvertsEncode (.adcDone 1023#10),
    decodeInvertsEncode (.btnPoll 0b1110#4), by decide, by decide, by decide⟩

end Sys2Proof

namespace Sys2Proof.Machine

/-- A delivered word that is no event is refused on the state without the input (R88). -/
theorem deliver_of_refused_word {p : Config.Params}
    {run : Instr → State → Host.Outcome State Fault Refusal} {s u : State} {w : EventWord}
    {e : DecodeRefusal} (hw : s.takeInput = (.word w, u)) (he : decode w = .error e) :
    deliver p run s = .next u.refuseWord := by
  simp [deliver, hw, he]

/-- Settles O10: a word that selects no row does not decode. -/
theorem undefinedWordIsRefused : Obligations.UndefinedWordIsRefused := by
  intro s w rest hrows hevents
  obtain ⟨e, he⟩ := (exists_decode_eq_error_iff w).2 hrows
  exact deliver_of_refused_word (State.takeInput_word hevents) he

end Sys2Proof.Machine

/-! The tick source (spec/40_tick.md): what the overflow chain writes into each byte and into the number
the bytes make, for any chain of distinct bytes; then TICK along runs, and HB_ACK. -/

namespace Sys2Proof.Machine

/-! The overflow chain (R100). -/

section Chain

variable {s : State} {ks : List Nat}

theorem State.tbByte_chain_of_not_mem (s : State) {ks : List Nat} {j : Nat} (hj : j ∉ ks) :
    (s.chain ks).tbByte j = s.tbByte j :=
  State.tbByte_of_getElem? ((s.chain_spec ks).2.2 j hj)

/-- Where the first byte has wrapped, the carry goes on to the bytes after it. -/
theorem State.chain_cons_of_wrap {k : Nat} (h : (s.incTb k).tbByte k = 0) :
    s.chain (k :: ks) = (s.incTb k).chain ks := if_pos h

theorem State.chain_cons_of_not_wrap {k : Nat} (h : (s.incTb k).tbByte k ≠ 0) :
    s.chain (k :: ks) = s.incTb k := if_neg h

theorem State.tbByte_incTb_same {k : Nat} (h : k < s.tb.length) :
    (s.incTb k).tbByte k = s.tbByte k + 1 := State.tbByte_writeTb_same s _ h

theorem State.tbByte_incTb_ne {k j : Nat} (h : j ≠ k) : (s.incTb k).tbByte j = s.tbByte j :=
  State.tbByte_writeTb_ne s _ h

/-- The least significant byte of a chain is incremented without condition. -/
theorem State.tbByte_chain_head {k : Nat} (hk : k < s.tb.length) (hn : k ∉ ks) :
    (s.chain (k :: ks)).tbByte k = s.tbByte k + 1 := by
  rw [← State.tbByte_incTb_same hk]
  by_cases hw : (s.incTb k).tbByte k = 0
  · rw [State.chain_cons_of_wrap hw, State.tbByte_chain_of_not_mem _ hn]
  · rw [State.chain_cons_of_not_wrap hw]

/-- A byte of a chain is incremented exactly where every byte before it has just become 0. -/
theorem State.tbByte_chain {pre post : List Nat} {j : Nat} (hn : (pre ++ j :: post).Nodup)
    (hlen : ∀ k ∈ pre ++ j :: post, k < s.tb.length) :
    (s.chain (pre ++ j :: post)).tbByte j =
      if ∀ i ∈ pre, (s.chain (pre ++ j :: post)).tbByte i = 0 then s.tbByte j + 1
      else s.tbByte j := by
  induction pre generalizing s with
  | nil =>
    simpa using State.tbByte_chain_head (hlen j (by simp)) (List.nodup_cons.1 hn).1
  | cons i pre ih =>
    obtain ⟨hi, hn⟩ := List.nodup_cons.1 hn
    have hij : j ≠ i := fun h => hi (by simp [h])
    by_cases hw : (s.incTb i).tbByte i = 0
    · have hi0 : ((s.incTb i).chain (pre ++ j :: post)).tbByte i = 0 :=
        (State.tbByte_chain_of_not_mem _ hi).trans hw
      rw [List.cons_append, State.chain_cons_of_wrap hw,
        ih hn fun k hk => by simpa using hlen k (List.mem_cons_of_mem _ hk),
        State.tbByte_incTb_ne hij]
      simp only [List.forall_mem_cons, hi0, true_and]
    · rw [List.cons_append, State.chain_cons_of_not_wrap hw, State.tbByte_incTb_ne hij,
        if_neg fun h => hw (h i List.mem_cons_self)]

/-- The number that the bytes at `ks` make, least significant first. -/
def State.chainNat (s : State) (ks : List Nat) : Nat :=
  Nat.ofDigits 256 (ks.map fun k => (s.tbByte k).toNat)

theorem State.chainNat_cons (s : State) (k : Nat) (ks : List Nat) :
    s.chainNat (k :: ks) = (s.tbByte k).toNat + 256 * s.chainNat ks := Nat.ofDigits_cons ..

theorem State.chainNat_lt (s : State) (ks : List Nat) : s.chainNat ks < 256 ^ ks.length := by
  have hlt : ∀ d ∈ ks.map fun k => (s.tbByte k).toNat, d < 256 := by
    simp only [List.forall_mem_map]
    exact fun k _ => (s.tbByte k).isLt
  simpa [State.chainNat] using Nat.ofDigits_lt_base_pow_length (by decide) hlt

theorem State.chainNat_congr {t : State} (h : ∀ k ∈ ks, t.tbByte k = s.tbByte k) :
    t.chainNat ks = s.chainNat ks := by
  rw [State.chainNat, State.chainNat, List.map_congr_left fun k hk => by rw [h k hk]]

/-- The overflow-chaining law (R102): a chain adds 1 to the number its bytes make, modulo the size of
the chain. -/
theorem State.chainNat_chain (hn : ks.Nodup) (hlen : ∀ k ∈ ks, k < s.tb.length) :
    (s.chain ks).chainNat ks = (s.chainNat ks + 1) % 256 ^ ks.length := by
  induction ks generalizing s with
  | nil => exact (Nat.mod_one _).symm
  | cons k ks ih =>
    obtain ⟨hk, hn⟩ := List.nodup_cons.1 hn
    obtain ⟨hkl, hlen⟩ := List.forall_mem_cons.1 hlen
    have hrest : (s.incTb k).chainNat ks = s.chainNat ks :=
      State.chainNat_congr fun j hj => State.tbByte_incTb_ne fun h => hk (h ▸ hj)
    have hlow := State.tbByte_incTb_same hkl
    rw [State.chainNat_cons, State.chainNat_cons, List.length_cons, pow_succ']
    by_cases hw : (s.incTb k).tbByte k = 0
    · have h255 : (s.tbByte k).toNat = 255 := by bv_omega
      rw [State.chain_cons_of_wrap hw, State.tbByte_chain_of_not_mem _ hk, hw,
        ih hn (by simpa using hlen), hrest, h255, ← Nat.mul_mod_mul_left]
      have hcarry : 255 + 256 * s.chainNat ks + 1 = 256 * (s.chainNat ks + 1) := by omega
      rw [hcarry]
      exact Nat.zero_add _
    · have hsucc : ((s.incTb k).tbByte k).toNat = (s.tbByte k).toNat + 1 := by bv_omega
      have hbyte := ((s.incTb k).tbByte k).isLt
      have hlt := s.chainNat_lt ks
      rw [State.chain_cons_of_not_wrap hw, hrest, hsucc, Nat.mod_eq_of_lt (by omega)]
      omega

end Chain

/-! The tick count (R25). -/

theorem toNat_append_byte {w : Nat} (x : BitVec w) (b : Byte) :
    (x ++ b).toNat = b.toNat + 256 * x.toNat := by
  rw [BitVec.toNat_append, ← Nat.shiftLeft_add_eq_or_of_lt b.isLt, Nat.shiftLeft_eq]
  omega

theorem State.tick32_toNat (s : State) : s.tick32.toNat = s.chainNat [10, 9, 8, 7] := by
  simp only [State.tick32, toNat_append_byte]
  rfl

theorem State.tick32_congr {s t : State} (h : ∀ k, 7 ≤ k → k ≤ 10 → t.tb[k]? = s.tb[k]?) :
    t.tick32 = s.tick32 := by
  have hb (k : Nat) (h7 : 7 ≤ k) (h10 : k ≤ 10) : t.tbByte k = s.tbByte k :=
    State.tbByte_of_getElem? (h k h7 h10)
  rw [State.tick32, State.tick32, hb 7 (by decide) (by decide), hb 8 (by decide) (by decide),
    hb 9 (by decide) (by decide), hb 10 (by decide) (by decide)]

/-- TICK is the only writer of the four bytes: with `13 ≤ L` the error byte lies above them. -/
theorem Effect.tick32_eq {p : Config.Params} {i : Instr} {s t : State} (h : Effect p s i t)
    (hl : 13 ≤ p.l) (hi : i ≠ .tick) : t.tick32 = s.tick32 := by
  refine State.tick32_congr fun k h7 h10 => (h.tb_writers k).resolve_right ?_
  rintro (⟨hk, -⟩ | ⟨hk, -⟩ | ⟨hk, -⟩ | ⟨-, -, rfl⟩ | ⟨hk, -⟩)
  case inr.inr.inr.inl => exact hi rfl
  all_goals omega

/-! TICK (R100, R101). -/

@[simp] theorem State.tbByte_quiet (s : State) (k : Nat) : s.quiet.tbByte k = s.tbByte k := rfl

section Tick

variable {p : Config.Params} {s : State}

theorem tick_eq (p : Config.Params) (s : State) :
    tick p s = { s with tb := (tick p s).tb, hb := wrapInc s.hb p.hbWidth } := by
  conv_lhs => rw [tick, (s.chain_spec _).1]
  rfl

theorem tick_tb_length (p : Config.Params) (s : State) : (tick p s).tb.length = s.tb.length :=
  (s.chain_spec _).2.1

theorem tick_getElem? (p : Config.Params) (s : State) {k : Nat} (hk : k ∉ [7, 8, 9, 10]) :
    (tick p s).tb[k]? = s.tb[k]? :=
  (s.chain_spec _).2.2 k fun h => hk (List.mem_reverse.1 h)

theorem tick_shape (h : s.Shape p) : (tick p s).Shape p := by
  rw [tick_eq]
  exact ⟨(tick_tb_length p s).trans h.1, h.2⟩

theorem tick_bytes_lt (hs : s.Shape p) (hl : 13 ≤ p.l) : ∀ k ∈ [10, 9, 8, 7], k < s.tb.length := by
  intro k hk
  have hk : k ≤ 10 := by simp at hk; omega
  have htb : s.tb.length = p.l - 1 := hs.1
  omega

/-- A byte of the tick count is incremented exactly where every byte below it has just become 0. -/
theorem tick_tbByte {pre post : List Nat} {j : Nat} (hsplit : pre ++ j :: post = [10, 9, 8, 7])
    (hs : s.Shape p) (hl : 13 ≤ p.l) :
    (tick p s).tbByte j =
      if ∀ i ∈ pre, (tick p s).tbByte i = 0 then s.tbByte j + 1 else s.tbByte j := by
  have hbytes : ∀ k, (tick p s).tbByte k = (s.chain (pre ++ j :: post)).tbByte k :=
    fun k => hsplit ▸ rfl
  simp only [hbytes]
  exact State.tbByte_chain (hsplit ▸ by decide) (hsplit ▸ tick_bytes_lt hs hl)

theorem tick_tick32_toNat (hs : s.Shape p) (hl : 13 ≤ p.l) :
    (tick p s).tick32.toNat = (s.tick32.toNat + 1) % 2 ^ 32 := by
  rw [State.tick32_toNat, State.tick32_toNat]
  exact State.chainNat_chain (by decide) (tick_bytes_lt hs hl)

theorem exec_tick (h : s.phase ≠ .active) :
    exec .tick s = .next (tick Config.params s.quiet) := nonSerial_applied h

end Tick

theorem State.hbDue_iff (p : Config.Params) (s : State) :
    s.hbDue p = true ↔ p.hbThreshold ≤ s.hb := decide_eq_true_iff

/-- Settles O17: each byte by its place in the chain, everything else by what TICK leaves. -/
theorem tickChainsBytesAndHeartbeat : Obligations.TickChainsBytesAndHeartbeat := by
  intro s hs ha
  have byte {pre post : List Nat} {j : Nat} (hsplit : pre ++ j :: post = [10, 9, 8, 7]) :=
    tick_tbByte (s := s.quiet) (p := Config.params) hsplit hs (by decide)
  refine ⟨tick Config.params s.quiet, exec_tick ha, ?_, ?_, ?_, ?_, ?_, ?_, ?_, ?_⟩
  · simpa using byte (pre := []) rfl
  · simpa using byte (pre := [10]) rfl
  · simpa using byte (pre := [10, 9]) rfl
  · simpa using byte (pre := [10, 9, 8]) rfl
  · rfl
  · exact State.hbDue_iff ..
  · exact fun k hk => tick_getElem? _ s.quiet hk
  · exact tick_eq _ s.quiet

/-- TICK opens no frame, so none of the `n` TICKs is held and each one counts. -/
theorem runEvents_replicate_tick (n : Nat) {s : State} (hs : s.Shape Config.params)
    (ha : s.phase ≠ .active) :
    ∃ t, runEvents (List.replicate n .tick) s = some (t, []) ∧
      t.tick32.toNat = (s.tick32.toNat + n) % 2 ^ 32 ∧
      ∀ k, k ∉ [7, 8, 9, 10] → t.tb[k]? = s.tb[k]? := by
  induction n generalizing s with
  | zero => exact ⟨s, rfl, (Nat.mod_eq_of_lt s.tick32.isLt).symm, fun _ _ => rfl⟩
  | succ n ih =>
    have hstep := tick_eq Config.params s.quiet
    have hphase : (tick Config.params s.quiet).phase = s.phase := by rw [hstep]; rfl
    have hout : (tick Config.params s.quiet).outputs = [] := by rw [hstep]; rfl
    have hquiet : s.quiet.Shape Config.params := hs
    obtain ⟨t, hrun, hcount, hframe⟩ := ih (tick_shape hquiet) (hphase ▸ ha)
    refine ⟨t, ?_, ?_, fun k hk => (hframe k hk).trans (tick_getElem? _ s.quiet hk)⟩
    · simp [List.replicate_succ, runEvents, exec_tick ha, hrun, hout]
    · rw [hcount, tick_tick32_toNat hquiet (by decide), Nat.mod_add_mod]
      congr 1
      exact Nat.add_right_comm _ 1 n

/-- Settles O18: the run of TICKs by induction on their number, every other event by the writers of the
telemetry image. -/
theorem ticksCountModuloTwoToThe32 : Obligations.TicksCountModuloTwoToThe32 :=
  ⟨fun n _ hs ha => runEvents_replicate_tick n hs ha,
    fun _ _ _ hi hx => (exec_effect hx).tick32_eq (by decide) hi⟩

/-- Settles O19: outside a frame HB_ACK is applied, and only a threshold of 0 is met by a count of 0. -/
theorem heartbeatAcknowledgeZeroes : Obligations.HeartbeatAcknowledgeZeroes := fun _ ha =>
  ⟨nonSerial_applied ha, (State.hbDue_iff _ _).trans Nat.le_zero⟩

end Sys2Proof.Machine

/-! Button debounce (spec/41_debounce.md): what the count writes into a lane's press counter,
for any list of distinct lanes; then BTN_POLL lane by lane, and the outputs that read its bytes. -/

namespace Sys2Proof.Machine

/-! The press counters (R121). -/

section Count

variable {p : Config.Params} {s : State} {pressed : Nat → Bool} {b j : Nat} {bs : List Nat}

/-- The turn of one lane in the count: `pressed` says which presses are accepted. -/
def State.countLane (p : Config.Params) (pressed : Nat → Bool) (s : State) (b : Nat) : State :=
  if pressed b then s.countPress p b else s

theorem countPresses_eq_foldl (p : Config.Params) (s₀ : State) (raw : Buttons) (s : State) :
    countPresses p s₀ raw s = lanes.foldl (State.countLane p (acceptsPress s₀ raw)) s := rfl

theorem State.countLane_tb_length : (s.countLane p pressed b).tb.length = s.tb.length := by
  rw [State.countLane]
  split
  · exact List.length_set
  · rfl

theorem State.tbByte_countLane_ne (h : j ≠ b) :
    (s.countLane p pressed b).tbByte j = s.tbByte j := by
  rw [State.countLane]
  split
  · exact State.tbByte_writeTb_ne s _ h
  · rfl

theorem State.tbByte_countLane_same (h : b < s.tb.length) :
    (s.countLane p pressed b).tbByte b =
      if pressed b then BitVec.ofNat 8 (satInc (s.tbByte b).toNat p.cntMax) else s.tbByte b := by
  rw [State.countLane]
  split
  · exact State.tbByte_writeTb_same s _ h
  · rfl

theorem State.tbByte_foldl_countLane_of_not_mem (h : j ∉ bs) :
    (bs.foldl (State.countLane p pressed) s).tbByte j = s.tbByte j := by
  induction bs generalizing s with
  | nil => rfl
  | cons b bs ih =>
    obtain ⟨hj, hbs⟩ := not_or.1 (mt List.mem_cons.2 h)
    exact (ih hbs).trans (State.tbByte_countLane_ne hj)

/-- Each lane of the count sees its counter as it stood before the first lane. -/
theorem State.tbByte_foldl_countLane (hn : bs.Nodup) (hb : b ∈ bs) (hlen : b < s.tb.length) :
    (bs.foldl (State.countLane p pressed) s).tbByte b = (s.countLane p pressed b).tbByte b := by
  induction bs generalizing s with
  | nil => cases hb
  | cons a bs ih =>
    obtain ⟨ha, hn⟩ := List.nodup_cons.1 hn
    rw [List.foldl_cons]
    rcases List.mem_cons.1 hb with rfl | hb
    · exact State.tbByte_foldl_countLane_of_not_mem ha
    · have hlen' : b < (s.countLane p pressed a).tb.length := by
        rwa [State.countLane_tb_length]
      have hba : b ≠ a := fun h => ha (h ▸ hb)
      rw [ih hn hb hlen', State.tbByte_countLane_same hlen', State.tbByte_countLane_ne hba,
        State.tbByte_countLane_same hlen]

theorem tbByte_countPresses (s₀ : State) (raw : Buttons) (hb : b < 4) (hlen : b < s.tb.length) :
    (countPresses p s₀ raw s).tbByte b =
      if acceptsPress s₀ raw b then BitVec.ofNat 8 (satInc (s.tbByte b).toNat p.cntMax)
      else s.tbByte b := by
  have hmem : b ∈ lanes := by simp [lanes]; omega
  rw [countPresses_eq_foldl, State.tbByte_foldl_countLane (by decide) hmem hlen,
    State.tbByte_countLane_same hlen]

end Count

/-- A saturating increment stays below its ceiling, so a byte holds it (R13). -/
theorem toNat_ofNat_satInc {x max : Nat} (h : max ≤ 255) :
    (BitVec.ofNat 8 (satInc x max)).toNat = satInc x max := by
  have hle : satInc x max ≤ max := by
    unfold satInc
    split <;> omega
  exact Nat.mod_eq_of_lt (by omega)

theorem satInc_pos {x max : Nat} (h : 0 < max) : 0 < satInc x max := by
  unfold satInc
  split <;> omega

/-! The outputs that read the bytes of BTN_POLL (R24, R48). -/

theorem interruptLine_eq (valid : Buttons) :
    interruptLine valid = if valid = 0b1111#4 then 0 else 1 := by
  revert valid
  decide

theorem State.attn_eq_false_iff (s : State) : s.attn = false ↔ ∀ b < 4, s.tbByte b = 0 := by
  simp only [State.attn, bne_eq_false_iff_eq, BitVec.ofNat_eq_ofNat, BitVec.or_eq_zero_iff,
    Nat.forall_lt_succ_right, Nat.not_lt_zero, false_implies, implies_true, true_and]

theorem State.attn_iff (s : State) : s.attn = true ↔ ∃ b < 4, s.tbByte b ≠ 0 := by
  rw [← Bool.not_eq_false, State.attn_eq_false_iff]
  simp

/-! BTN_POLL, lane by lane (R120 to R123). -/

theorem accepts_iff (s : State) (raw : Buttons) (b : Nat) :
    accepts s raw b = true ↔
      raw.getLsbD b = s.ab.getLsbD b ∧ raw.getLsbD b ≠ s.valid.getLsbD b := by
  simp [accepts, level]

section Poll

variable {p : Config.Params} {s : State} {raw : Buttons} {b : Nat}

theorem btnPoll_eq (p : Config.Params) (raw : Buttons) (s : State) :
    btnPoll p raw s = { s with
      tb := (btnPoll p raw s).tb, ab := raw, valid := ofLanes (acceptedLevel s raw) } := by
  conv_lhs => rw [btnPoll, (countPresses_spec p s raw s).1]
  rfl

theorem btnPoll_tb (p : Config.Params) (raw : Buttons) (s : State) :
    (btnPoll p raw s).tb =
      ((countPresses p s raw s).writeTb 6 (interruptLine (btnPoll p raw s).valid)).tb := rfl

theorem getLsbD_btnPoll_valid (hb : b < 4) :
    (btnPoll p raw s).valid.getLsbD b =
      if accepts s raw b then raw.getLsbD b else s.valid.getLsbD b := getLsbD_ofLanes _ hb

theorem tbByte_btnPoll (hb : b < 4) (hlen : b < s.tb.length) :
    (btnPoll p raw s).tbByte b =
      if acceptsPress s raw b then BitVec.ofNat 8 (satInc (s.tbByte b).toNat p.cntMax)
      else s.tbByte b := by
  rw [State.tbByte_congr (btnPoll_tb p raw s), State.tbByte_writeTb_ne _ _ (by omega),
    tbByte_countPresses s raw hb hlen]

theorem tbByte_btnPoll_six (hlen : 6 < s.tb.length) :
    (btnPoll p raw s).tbByte 6 = interruptLine (btnPoll p raw s).valid := by
  rw [State.tbByte_congr (btnPoll_tb p raw s)]
  exact State.tbByte_writeTb_same _ _ ((countPresses_spec p s raw s).2.1 ▸ hlen)

theorem btnPoll_getElem? (p : Config.Params) (raw : Buttons) (s : State) {k : Nat}
    (hk : k ∉ [0, 1, 2, 3, 6]) : (btnPoll p raw s).tb[k]? = s.tb[k]? := by
  have hne : k ≠ 6 := by rintro rfl; exact hk (by decide)
  have hlane : k ∉ lanes := fun h => hk (List.mem_append_left [6] h)
  rw [btnPoll_tb, State.getElem?_writeTb_ne _ _ hne]
  exact (countPresses_spec p s raw s).2.2 k hlane

/-- A lane whose transition is accepted takes the raw level, and a press is counted. -/
theorem btnPoll_lane_of_accepts (hb : b < 4) (hlen : b < s.tb.length) (h : accepts s raw b = true) :
    (btnPoll p raw s).valid.getLsbD b = raw.getLsbD b ∧
      (btnPoll p raw s).tbByte b =
        if raw.getLsbD b = false then BitVec.ofNat 8 (satInc (s.tbByte b).toNat p.cntMax)
        else s.tbByte b := by
  rw [getLsbD_btnPoll_valid hb, tbByte_btnPoll hb hlen]
  simp [acceptsPress, level, h]

/-- A lane without an accepted transition keeps its accepted level and its counter. -/
theorem btnPoll_lane_of_not_accepts (hb : b < 4) (hlen : b < s.tb.length)
    (h : ¬accepts s raw b = true) :
    (btnPoll p raw s).valid.getLsbD b = s.valid.getLsbD b ∧
      (btnPoll p raw s).tbByte b = s.tbByte b := by
  rw [getLsbD_btnPoll_valid hb, tbByte_btnPoll hb hlen]
  simp [acceptsPress, h]

/-- An accepted press raises `ATTN`: its counter is at least 1, saturated or not. -/
theorem attn_btnPoll_of_press (hb : b < 4) (hlen : b < s.tb.length) (h : accepts s raw b = true)
    (hpress : raw.getLsbD b = false) (hmax : 0 < p.cntMax ∧ p.cntMax ≤ 255) :
    (btnPoll p raw s).attn = true := by
  refine (State.attn_iff _).2 ⟨b, hb, fun hzero => ?_⟩
  have hcount := congrArg BitVec.toNat (btnPoll_lane_of_accepts (p := p) hb hlen h).2
  rw [if_pos hpress, hzero, toNat_ofNat_satInc hmax.2] at hcount
  exact (satInc_pos hmax.1).ne hcount

theorem exec_btnPoll (raw : Buttons) (h : s.phase ≠ .active) :
    exec (.btnPoll raw) s = .next (btnPoll Config.params raw s.quiet) := nonSerial_applied h

end Poll

/-- Settles O20: each lane by whether its transition is accepted, everything else by what BTN_POLL
leaves. -/
theorem buttonPollFiltersEachLane : Obligations.ButtonPollFiltersEachLane := by
  intro raw s hs ha
  have htb : s.quiet.tb.length = 19 := hs.1
  have hlen {b : Nat} (hb : b < 4) : b < s.quiet.tb.length := by omega
  refine ⟨btnPoll Config.params raw s.quiet, exec_btnPoll raw ha, rfl,
    fun b hb => ⟨fun h => ?_, fun h => ?_⟩, ?_, State.attn_iff _, fun b hb hab hvalid hpress => ?_,
    fun k hk => btnPoll_getElem? _ raw s.quiet hk, btnPoll_eq _ raw s.quiet⟩
  · obtain ⟨hlevel, hcount⟩ := btnPoll_lane_of_accepts (p := Config.params) hb (hlen hb)
      ((accepts_iff s.quiet raw b).2 h)
    refine ⟨hlevel, ?_⟩
    rw [hcount, apply_ite BitVec.toNat, toNat_ofNat_satInc (by decide)]
    rfl
  · exact btnPoll_lane_of_not_accepts hb (hlen hb) (mt (accepts_iff s.quiet raw b).1 h)
  · rw [tbByte_btnPoll_six (by omega), interruptLine_eq]
  · exact attn_btnPoll_of_press hb (hlen hb) ((accepts_iff s.quiet raw b).2 ⟨hab, hvalid⟩) hpress
      (by decide)

end Sys2Proof.Machine

/-! The analog part (spec/42_adc.md): the two events outside a frame, case by case; the settle gate along
a run; a settled code on either channel, with what the rolling average makes of an accepted one; then the
requests, the errors and the power mode, by the case split `Effect` of one event. -/

namespace Sys2Proof.Machine

/-! ADC_START and ADC_DONE outside a frame (R140 to R146). -/

section Applied

variable {p : Config.Params} {s : State} {r : AdcCode}

theorem execWith_adcStart (h : s.phase ≠ .active) :
    execWith p .adcStart s = .next (adcStart s.quiet) := nonSerial_applied h

theorem execWith_adcDone (r : AdcCode) (h : s.phase ≠ .active) :
    execWith p (.adcDone r) s = .next (adcDone p r s.quiet) := nonSerial_applied h

theorem adcStart_of_busy (h : s.abusy = true) : adcStart s = s := if_pos h

theorem adcStart_of_idle (h : s.abusy = false) :
    adcStart s = { s with settle := 0, abusy := true, outputs := s.outputs ++ [.convReq s.ch] } := by
  simp [adcStart, h, State.emit]

theorem adcDone_of_idle (h : s.abusy = false) : adcDone p r s = s := by simp [adcDone, h]

theorem adcDone_of_unsettled (hb : s.abusy = true) (hs : s.settle.toNat + 1 < p.settleN) :
    adcDone p r s = { s with settle := s.settle + 1, outputs := s.outputs ++ [.convReq s.ch] } := by
  simp [adcDone, hb, hs, State.emit, BitVec.ofNat_add]

theorem adcDone_of_settled (hb : s.abusy = true) (hs : p.settleN ≤ s.settle.toNat + 1) :
    adcDone p r s = (processSample p r s).endAcquisition := by
  simp [adcDone, hb, Nat.not_lt.2 hs]

/-- The last ADC_DONE of an acquisition: its code is processed and the acquisition ends. -/
theorem execWith_adcDone_of_settled (r : AdcCode) (ha : s.phase ≠ .active) (hb : s.abusy = true)
    (hs : p.settleN ≤ s.settle.toNat + 1) :
    execWith p (.adcDone r) s = .next (processSample p r s.quiet).endAcquisition := by
  rw [execWith_adcDone r ha, adcDone_of_settled (s := s.quiet) hb hs]

end Applied

/-- Settles O22: the two branches of ADC_START. -/
theorem adcStartBeginsOrIsIgnored : Obligations.AdcStartBeginsOrIsIgnored := by
  intro s ha
  rw [exec_eq_execWith, execWith_adcStart ha]
  exact ⟨fun hb => congrArg _ (adcStart_of_idle (s := s.quiet) hb),
    fun hb => congrArg _ (adcStart_of_busy (s := s.quiet) hb)⟩

/-- Settles O23: the first branch of ADC_DONE. -/
theorem adcDoneWhileIdleIsIgnored : Obligations.AdcDoneWhileIdleIsIgnored := by
  intro s r ha hb
  rw [exec_eq_execWith, execWith_adcDone r ha, adcDone_of_idle (s := s.quiet) hb]
  rfl

/-- Settles O24: the second branch of ADC_DONE. -/
theorem unsettledConversionRestarts : Obligations.UnsettledConversionRestarts := by
  intro s r ha hb hs
  rw [exec_eq_execWith, execWith_adcDone r ha, adcDone_of_unsettled (s := s.quiet) hb hs]
  rfl

/-! What processing a sample may write (R147 to R151). -/

/-- Processing a sample writes the readings, the ring and the telemetry image only. -/
theorem processSample_frame (p : Config.Params) (r : AdcCode) (s : State) :
    processSample p r s = { s with
      tb := (processSample p r s).tb, batLastMv := (processSample p r s).batLastMv,
      voutMv := (processSample p r s).voutMv, batAvgMv := (processSample p r s).batAvgMv,
      ring := (processSample p r s).ring, ridx := (processSample p r s).ridx,
      rcnt := (processSample p r s).rcnt } := by
  rcases processSample_cases p r s with ⟨-, -, h⟩ | ⟨-, -, h⟩ | ⟨-, -, h⟩ | ⟨-, -, h⟩
  · rw [h]
  · rw [h]
    rfl
  · rw [h]
  · rw [h]

theorem processSample_ch (p : Config.Params) (r : AdcCode) (s : State) :
    (processSample p r s).ch = s.ch := by rw [processSample_frame]

theorem processSample_outputs (p : Config.Params) (r : AdcCode) (s : State) :
    (processSample p r s).outputs = s.outputs := by rw [processSample_frame]

/-! The settle gate (R143). -/

theorem runWith_cons {p : Config.Params} {i : Instr} {is : List Instr} {s u t : State}
    {os : List Output} (hstep : execWith p i s = .next u) (hrun : runWith p is u = some (t, os)) :
    runWith p (i :: is) s = some (t, u.outputs ++ os) := by
  simp [runWith, hstep, hrun]

/-- While the settle count stays short of `SETTLE_N`, each code of a run of ADC_DONEs is discarded and
asks for one more conversion of the same channel; the 8-bit count does not wrap before 256. -/
theorem runWith_adcDones_unsettled {p : Config.Params} (hN : p.settleN ≤ 256) (rs : List AdcCode)
    {s : State} (ha : s.phase ≠ .active) (hb : s.abusy = true)
    (hs : s.settle.toNat + rs.length < p.settleN) :
    ∃ t, runWith p (rs.map .adcDone) s = some (t, List.replicate rs.length (.convReq s.ch)) ∧
      t.quiet = { s.quiet with settle := BitVec.ofNat 8 (s.settle.toNat + rs.length) } := by
  induction rs generalizing s with
  | nil => exact ⟨s, rfl, by simp [State.quiet]⟩
  | cons r rs ih =>
    rw [List.length_cons] at hs
    have hstep : execWith p (.adcDone r) s =
        .next { s with settle := s.settle + 1, outputs := [.convReq s.ch] } := by
      rw [execWith_adcDone r ha, adcDone_of_unsettled (s := s.quiet) hb
        (show s.settle.toNat + 1 < p.settleN by omega)]
      rfl
    have hcount : (s.settle + 1).toNat = s.settle.toNat + 1 := by bv_omega
    obtain ⟨t, hrun, ht⟩ :=
      ih (s := { s with settle := s.settle + 1, outputs := [.convReq s.ch] }) ha hb
        (by rw [hcount]; omega)
    refine ⟨t, runWith_cons hstep hrun, ht.trans ?_⟩
    simp only [hcount, List.length_cons, Nat.add_assoc, Nat.add_comm 1]
    rfl

/-- Settles O29: ADC_START sets the count to 0, the run of discarded codes leaves it at `SETTLE_N - 1`,
and the next code meets the settled branch. -/
theorem settleGateDiscardsThenProcesses : Obligations.SettleGateDiscardsThenProcesses := by
  intro p s rs r hN ha hb hlen
  have hstart : execWith p .adcStart s =
      .next { s with settle := 0, abusy := true, outputs := [.convReq s.ch] } := by
    rw [execWith_adcStart ha, adcStart_of_idle (s := s.quiet) hb]
    rfl
  obtain ⟨t, hrun, ht⟩ := runWith_adcDones_unsettled hN rs
    (s := { s with settle := 0, abusy := true, outputs := [.convReq s.ch] }) ha rfl
    (show 0 + rs.length < p.settleN by omega)
  have hquiet : t.quiet =
      { s.quiet with abusy := true, settle := BitVec.ofNat 8 rs.length } := by
    simpa [State.quiet] using ht
  have hphase : t.phase ≠ .active := by
    rw [← State.quiet_phase t, hquiet]
    exact ha
  have hbusy : t.abusy = true := by rw [← State.quiet_abusy t, hquiet]
  have hch : t.ch = s.ch := by
    rw [← State.quiet_ch t, hquiet]
    rfl
  have hsettled : p.settleN ≤ t.settle.toNat + 1 := by
    rw [← State.quiet_settle t, hquiet, BitVec.toNat_ofNat]
    omega
  refine ⟨t, (processSample p r t.quiet).endAcquisition, hlen ▸ runWith_cons hstart hrun,
    congrArg State.regs hquiet, execWith_adcDone_of_settled r hphase hbusy hsettled, rfl, rfl,
    rfl, ?_, processSample_outputs ..⟩
  rw [State.endAcquisition_ch, processSample_ch, State.quiet_ch, hch]
  cases s.ch <;> rfl

/-! A settled REFERENCE code (R147 to R149). -/

section Reference

variable {p : Config.Params} {s : State} {r : AdcCode}

theorem referenceRejected_iff :
    referenceRejected p r = true ↔
      r.toNat = p.sentinel ∨ r.toNat = 0 ∨ p.vCeilMv < p.adcFs * p.vrefMv / r.toNat := by
  by_cases h0 : r.toNat = 0
  · simp [referenceRejected, h0]
  · simp [referenceRejected, referenceMv_of_ne_zero p h0, or_assoc]

theorem processSample_of_rejected (hc : s.ch = .reference) (hr : referenceRejected p r = true) :
    processSample p r s = s := by simp [processSample, processReference, hc, hr]

theorem processSample_of_accepted (hc : s.ch = .reference) (hr : referenceRejected p r = false) :
    processSample p r s = { s with batLastMv := BitVec.ofNat 16 (referenceMv p r) }.average p
      (BitVec.ofNat 16 (referenceMv p r)) := by simp [processSample, processReference, hc, hr]

theorem execWith_adcDone_of_rejected (ha : s.phase ≠ .active) (hb : s.abusy = true)
    (hc : s.ch = .reference) (hs : p.settleN ≤ s.settle.toNat + 1)
    (hr : referenceRejected p r = true) :
    execWith p (.adcDone r) s =
      .next { s with ch := .boardVout, settle := 0, abusy := false, outputs := [] } := by
  rw [execWith_adcDone_of_settled r ha hb hs, processSample_of_rejected (s := s.quiet) hc hr,
    State.endAcquisition, State.quiet_ch, hc]
  rfl

/-- An accepted reading is at most the ceiling, so the stored word is the reading itself. -/
theorem execWith_adcDone_of_accepted (hceil : p.vCeilMv ≤ 65535) (ha : s.phase ≠ .active)
    (hb : s.abusy = true) (hc : s.ch = .reference) (hs : p.settleN ≤ s.settle.toNat + 1)
    (hr : referenceRejected p r = false) :
    ∃ v : Millivolts, v.toNat = referenceMv p r ∧
      execWith p (.adcDone r) s =
        .next ({ s.quiet with batLastMv := v }.average p v).endAcquisition := by
  obtain ⟨-, -, hle⟩ := (referenceRejected_eq_false p r).1 hr
  refine ⟨BitVec.ofNat 16 (referenceMv p r), Nat.mod_eq_of_lt (by omega), ?_⟩
  rw [execWith_adcDone_of_settled r ha hb hs, processSample_of_accepted (s := s.quiet) hc hr]

end Reference

/-- Settles O25: a rejected code leaves the end of the acquisition alone. -/
theorem rejectedReferenceIsDiscarded : Obligations.RejectedReferenceIsDiscarded := by
  refine ⟨fun p s r ha hb hc hs hr => ?_, fun s r ha hb hc hs hr => ?_⟩
  · exact execWith_adcDone_of_rejected ha hb hc hs (referenceRejected_iff.2 hr)
  · rw [exec_eq_execWith]
    refine execWith_adcDone_of_rejected ha hb hc hs (referenceRejected_iff.2 ?_)
    rcases hr with rfl | rfl
    · exact .inl rfl
    · exact .inr (.inl rfl)

/-! The rolling average of an accepted code (R170 to R175). -/

section Average

variable {p : Config.Params} {s : State} {v : Millivolts}

/-- The sum of the first `n` entries of a list whose entries are at most `b`. -/
theorem sum_take_toNat_le {l : List Millivolts} {b : Nat} (h : ∀ e ∈ l, e.toNat ≤ b) (n : Nat) :
    ((l.take n).map BitVec.toNat).sum ≤ n * b := by
  have hsum := List.sum_le_card_nsmul ((l.take n).map BitVec.toNat) b
    (List.forall_mem_map.2 fun e he => h e (List.mem_of_mem_take he))
  rw [smul_eq_mul, List.length_map, List.length_take] at hsum
  exact hsum.trans (Nat.mul_le_mul_right b (Nat.min_le_left ..))

/-- A mean of entries at most `b` is at most `b`. -/
theorem State.ringSum_div_le {b : Nat} (h : ∀ e ∈ s.ring, e.toNat ≤ b) :
    s.ringSum / s.rcnt.toNat ≤ b :=
  Nat.div_le_of_le_mul (sum_take_toNat_le h _)

/-- The truncated mean of 16-bit entries fits in 16 bits. -/
theorem State.updateMean_batAvgMv_toNat (h : 0 < s.rcnt.toNat) :
    s.updateMean.batAvgMv.toNat = s.ringSum / s.rcnt.toNat := by
  have hle : s.ringSum / s.rcnt.toNat ≤ 65535 :=
    State.ringSum_div_le fun e _ => Nat.le_of_lt_succ e.isLt
  rw [State.updateMean_batAvgMv, natDiv_of_pos h, BitVec.toNat_ofNat]
  exact Nat.mod_eq_of_lt (Nat.lt_succ_of_le hle)

theorem State.average_ridx_toNat (hm : 1 ≤ p.m ∧ p.m ≤ 255) :
    (s.average p v).ridx.toNat = (s.ridx.toNat + 1) % p.m := by
  have hlt : (s.ridx.toNat + 1) % p.m < p.m := Nat.mod_lt _ hm.1
  exact Nat.mod_eq_of_lt (by omega)

theorem State.average_rcnt_toNat (hm : 1 ≤ p.m ∧ p.m ≤ 255) :
    (s.average p v).rcnt.toNat = min (s.rcnt.toNat + 1) p.m :=
  Nat.mod_eq_of_lt (by omega)

/-- The mean is that of the entries valid after the push; there is at least one. -/
theorem State.average_batAvgMv_toNat (hm : 1 ≤ p.m ∧ p.m ≤ 255) :
    (s.average p v).batAvgMv.toNat = (s.average p v).ringSum / (s.average p v).rcnt.toNat := by
  have hpos : 0 < (s.average p v).rcnt.toNat := by
    rw [State.average_rcnt_toNat hm]
    omega
  exact State.updateMean_batAvgMv_toNat (s := s.ringPush p v) hpos

theorem toNat_correctedMean (p : Config.Params) (s : State) :
    (s.correctedMean p).toNat = (s.batAvgMv.toNat + s.dropMv p) % 2 ^ 16 := BitVec.toNat_ofNat ..

/-- The two bytes of the battery telemetry read back as the value written (R23, R64). -/
theorem State.batTel_writeBatTel (s : State) (v : Millivolts) (h : 5 < s.tb.length) :
    (s.writeBatTel v).batTel = v := by
  rw [State.writeBatTel_eq, State.batTel, State.tbByte_writeTb_ne _ _ (by decide),
    State.tbByte_writeTb_same _ _ (by omega), State.tbByte_writeTb_same _ _ (by simpa using h)]
  refine BitVec.eq_of_toNat_eq ?_
  rw [toNat_append_byte, BitVec.extractLsb'_toNat, BitVec.extractLsb'_toNat,
    Nat.shiftRight_eq_div_pow, Nat.shiftRight_eq_div_pow]
  omega

/-- The battery telemetry after an accepted sample: the new mean and the drop `VOUT_MV` selects. -/
theorem State.average_batTel_toNat (h : 5 < s.tb.length) :
    (s.average p v).batTel.toNat = ((s.average p v).batAvgMv.toNat + s.dropMv p) % 2 ^ 16 := by
  have htel : (s.average p v).batTel = (s.ringPush p v).updateMean.correctedMean p :=
    State.batTel_writeBatTel _ _ h
  rw [htel, toNat_correctedMean]
  rfl

theorem State.average_ringReadings (hv : v.toNat ≤ p.vCeilMv) (hs : s.RingReadings p) :
    (s.average p v).RingReadings p := by
  intro e he
  rcases List.mem_or_eq_of_mem_set he with hold | rfl
  · exact hs e hold
  · exact hv

/-- With accepted readings only, R8 leaves room for the drop above the mean: nothing wraps. -/
theorem State.average_batTel_toNat_of_ringReadings (hw : p.wf = true) (h : 5 < s.tb.length)
    (hr : (s.average p v).RingReadings p) :
    (s.average p v).batTel.toNat = (s.average p v).batAvgMv.toNat + s.dropMv p := by
  obtain ⟨-, hm, -, -, -, -, -, -, hroom⟩ := (Config.Params.wf_iff p).1 hw
  have hmean : (s.average p v).batAvgMv.toNat ≤ p.vCeilMv := by
    rw [State.average_batAvgMv_toNat hm]
    exact State.ringSum_div_le hr
  have hdrop : s.dropMv p ≤ max p.dropLoMv p.dropHiMv := by
    unfold State.dropMv
    split
    · exact Nat.le_max_left ..
    · exact Nat.le_max_right ..
  rw [State.average_batTel_toNat h]
  exact Nat.mod_eq_of_lt (by omega)

end Average

/-- Settles O26: the accepted branch, register by register from the rolling average. -/
theorem acceptedReferenceUpdatesRingMeanAndTelemetry :
    Obligations.AcceptedReferenceUpdatesRingMeanAndTelemetry := by
  intro p s r hw hshape _ ha hb hc hs hsent h0 hle
  obtain ⟨hl, hm, -, -, -, -, ⟨hceil, -⟩, -⟩ := (Config.Params.wf_iff p).1 hw
  have hmv := referenceMv_of_ne_zero p h0
  obtain ⟨v, hv, hexec⟩ := execWith_adcDone_of_accepted (r := r) hceil ha hb hc hs
    ((referenceRejected_eq_false p r).2 ⟨hsent, h0, hmv.trans_le hle⟩)
  rw [hmv] at hv
  have htb : 5 < s.tb.length := by
    have hlength : s.tb.length = p.l - 1 := hshape.1
    omega
  refine ⟨_, hexec, hv, rfl, State.average_ridx_toNat (v := v) hm,
    State.average_rcnt_toNat (v := v) hm, State.average_batAvgMv_toNat hm,
    State.average_batTel_toNat htb, fun hring => ?_, (State.average_spec p _ v).2.2, ?_⟩
  · have hring' := State.average_ringReadings (s := { s.quiet with batLastMv := v })
      (hv.trans_le hle) hring
    exact ⟨hring', State.average_batTel_toNat_of_ringReadings hw htb hring'⟩
  · have hother : s.ch.other = .boardVout := by rw [hc]; rfl
    rw [← hother]
    rfl

/-! A settled BOARD_VOUT code (R150, R151). -/

section BoardVout

variable {s : State} {r : AdcCode}

/-- What a BOARD_VOUT code leaves in `VOUT_MV`. -/
def State.scaledVout (s : State) (p : Config.Params) (r : AdcCode) : Millivolts :=
  if p.vCeilMv < boardVoutMv p s.batLastMv r then s.voutMv
  else BitVec.ofNat 16 (boardVoutMv p s.batLastMv r)

theorem processSample_of_boardVout {p : Config.Params} (hc : s.ch = .boardVout) :
    processSample p r s = { s with voutMv := s.scaledVout p r } := by
  have h : processSample p r s = processBoardVout p r s := by simp only [processSample, hc]
  rw [h, processBoardVout, State.scaledVout]
  split <;> rfl

theorem exec_adcDone_of_boardVout (ha : s.phase ≠ .active) (hb : s.abusy = true)
    (hc : s.ch = .boardVout) (hs : Config.params.settleN ≤ s.settle.toNat + 1) :
    exec (.adcDone r) s =
      .next { s with voutMv := s.scaledVout Config.params r, ch := .reference, settle := 0,
                     abusy := false, outputs := [] } := by
  rw [exec_eq_execWith, execWith_adcDone_of_settled r ha hb hs,
    processSample_of_boardVout (s := s.quiet) hc, State.endAcquisition, State.quiet_ch, hc]
  rfl

theorem boardVoutMv_params (b : Millivolts) (r : AdcCode) :
    boardVoutMv Config.params b r = r.toNat * b.toNat / Config.params.adcFs :=
  boardVoutMv_of_pos (by decide) b r

/-- A stored value is at most the ceiling, so 16 bits hold it. -/
theorem State.scaledVout_toNat
    (h : r.toNat * s.batLastMv.toNat / Config.params.adcFs ≤ Config.params.vCeilMv) :
    (s.scaledVout Config.params r).toNat = r.toNat * s.batLastMv.toNat / Config.params.adcFs := by
  rw [State.scaledVout, boardVoutMv_params, if_neg (Nat.not_lt.2 h), BitVec.toNat_ofNat]
  rw [Config.params_vCeilMv] at h
  exact Nat.mod_eq_of_lt (by omega)

theorem State.scaledVout_of_ceil_lt
    (h : Config.params.vCeilMv < r.toNat * s.batLastMv.toNat / Config.params.adcFs) :
    s.scaledVout Config.params r = s.voutMv := by
  rw [State.scaledVout, boardVoutMv_params, if_pos h]

end BoardVout

/-- Settles O27: above the ceiling `VOUT_MV` stands, at or below it the quotient is stored. -/
theorem boardVoutSampleIsScaledAndStored : Obligations.BoardVoutSampleIsScaledAndStored := by
  intro s r ha hb hc hs
  refine ⟨_, exec_adcDone_of_boardVout ha hb hc hs, ?_, rfl⟩
  split
  · next h => exact State.scaledVout_of_ceil_lt h
  · next h => exact State.scaledVout_toNat (Nat.le_of_not_lt h)

/-- No code exceeds full scale, so the scaled value is at most the supply reading (R151). -/
theorem scaled_le_batLastMv (r : AdcCode) (b : Millivolts) :
    r.toNat * b.toNat / Config.params.adcFs ≤ b.toNat :=
  Nat.div_le_of_le_mul (Nat.mul_le_mul_right _ (Nat.le_of_lt_succ r.isLt))

/-- Settles O28: the scaled value is at most the supply reading, which is within the ceiling. -/
theorem boardVoutIsNeverRejected : Obligations.BoardVoutIsNeverRejected := by
  intro s r ha hb hc hs ⟨hbat, _⟩
  have hle := scaled_le_batLastMv r s.batLastMv
  have hv := State.scaledVout_toNat (hle.trans hbat)
  refine ⟨_, exec_adcDone_of_boardVout ha hb hc hs, hv, hv.trans_le hle, hbat, fun h0 => ?_,
    fun hfs => ?_⟩
  · refine BitVec.eq_of_toNat_eq (hv.trans ?_)
    simp [h0]
  · refine BitVec.eq_of_toNat_eq (hv.trans ?_)
    rw [hfs]
    exact Nat.mul_div_cancel_left _ (by decide)

/-! Requests and the multiplexer (R141), errors (R154). -/

section Outputs

variable {p : Config.Params} {i : Instr} {s t : State}

/-- The outputs of an event: none, one request of the selected channel, or those of a serial event,
which requests nothing. -/
theorem Effect.outputs_cases (h : Effect p s i t) :
    t.outputs = [] ∨ t.outputs = [.convReq s.ch] ∨
      (i.isSerial = true ∧ requests t.outputs = []) := by
  cases h
  case started | unsettled => exact .inr (.inl rfl)
  case byteIdle => exact .inr (.inr ⟨rfl, rfl⟩)
  case byteTaken | completed => exact .inr (.inr ⟨rfl, requests_afterByte p ..⟩)
  all_goals exact .inl rfl

theorem Effect.requests_eq_of_mem (h : Effect p s i t) {ch : Channel}
    (hch : ch ∈ requests t.outputs) : ch = s.ch := by
  rcases h.outputs_cases with ho | ho | ⟨-, ho⟩
  · simp [ho, requests] at hch
  · simpa [ho, requests] using hch
  · simp [ho] at hch

/-- The multiplexer moves at the end of an acquisition only, which requests nothing. -/
theorem Effect.ch_cases (h : Effect p s i t) :
    t.ch = s.ch ∨
      ((∃ r, i = .adcDone r) ∧ s.abusy = true ∧ t.abusy = false ∧ requests t.outputs = []) := by
  cases h
  case rejected hb _ _ _ => exact .inr ⟨⟨_, rfl⟩, hb, rfl, rfl⟩
  case accepted hb _ _ _ _ _ _ _ _ _ => exact .inr ⟨⟨_, rfl⟩, hb, rfl, rfl⟩
  case scaled hb _ _ _ _ => exact .inr ⟨⟨_, rfl⟩, hb, rfl, rfl⟩
  all_goals exact .inl rfl

/-- Only serial events reply a byte or raise the strobe. -/
theorem Effect.no_reply_of_not_serial (h : Effect p s i t) (hi : i.isSerial = false) :
    .errEvt ∉ t.outputs ∧ replyBytes t.outputs = [] := by
  rcases h.outputs_cases with ho | ho | ⟨hserial, -⟩
  · simp [ho, replyBytes]
  · simp [ho, replyBytes]
  · exact absurd (hi.symm.trans hserial) (by decide)

end Outputs

/-- Settles O30: a request names the channel selected before, and an event that moves the multiplexer
requests nothing. -/
theorem requestsNameTheSelectedChannel : Obligations.RequestsNameTheSelectedChannel := by
  intro i s t hx
  have h := exec_effect hx
  refine ⟨fun ch hch => ?_, fun hne => h.ch_cases.resolve_left hne⟩
  have hs : ch = s.ch := h.requests_eq_of_mem hch
  rcases h.ch_cases with hsame | ⟨-, -, -, hnone⟩
  · exact ⟨hs, hs.trans hsame.symm⟩
  · simp [hnone] at hch

/-- Every event answers a next state in every state (R263). -/
theorem exec_exists_next (i : Instr) (s : State) : ∃ t, exec i s = .next t := by
  cases i <;> exact ⟨_, rfl⟩

/-- Settles O32: the error byte is written by serial events and PWR_POLL only, and only serial events
reply or raise the strobe. -/
theorem analogPartNeverReportsErrors : Obligations.AnalogPartNeverReportsErrors := by
  intro s i hi
  obtain ⟨t, hx⟩ := exec_exists_next i s
  have h := exec_effect hx
  have hserial : i.isSerial = false := by rcases hi with rfl | ⟨r, rfl⟩ <;> rfl
  refine ⟨t, hx, State.tbByte_of_getElem? ((h.tb_writers _).resolve_right ?_),
    h.no_reply_of_not_serial hserial⟩
  rcases hi with rfl | ⟨r, rfl⟩ <;> simp [TbWriter]

/-! The power mode (R155). -/

section Mode

variable {p : Config.Params} {s : State} {r : AdcCode} {m : PowerMode}

theorem processSample_setMode :
    processSample p r { s with mode := m } = { processSample p r s with mode := m } := by
  rcases processSample_cases p r s with ⟨hc, hr, h⟩ | ⟨hc, hr, h⟩ | ⟨hc, -, -⟩ | ⟨hc, -, -⟩
  · rw [h, processSample_of_rejected (s := { s with mode := m }) hc hr]
  · rw [h, processSample_of_accepted (s := { s with mode := m }) hc hr]
    rfl
  all_goals
    rw [processSample_of_boardVout hc, processSample_of_boardVout (s := { s with mode := m }) hc]
    rfl

theorem adcStart_setMode :
    adcStart { s with mode := m } = { adcStart s with mode := m } := by
  rcases adcStart_cases s with ⟨hb, h⟩ | ⟨hb, h⟩ <;> rw [h]
  · exact adcStart_of_busy hb
  · exact adcStart_of_idle (s := { s with mode := m }) hb

theorem adcDone_setMode :
    adcDone p r { s with mode := m } = { adcDone p r s with mode := m } := by
  rcases adcDone_cases p r s with ⟨hb, h⟩ | ⟨hb, hs, -⟩ | ⟨hb, hs, -⟩
  · rw [h, adcDone_of_idle (s := { s with mode := m }) hb]
  · rw [adcDone_of_unsettled hb hs, adcDone_of_unsettled (s := { s with mode := m }) hb hs]
  · rw [adcDone_of_settled hb hs, adcDone_of_settled (s := { s with mode := m }) hb hs,
      processSample_setMode]
    rfl

/-- A hold reads no mode, so a non-serial event lets the mode through where its effect does. -/
theorem nonSerial_setMode {i : Instr} {f : State → State} {t : State}
    (hf : f { s.quiet with mode := m } = { f s.quiet with mode := m })
    (h : nonSerial i f s = .next t) :
    nonSerial i f { s with mode := m } = .next { t with mode := m } := by
  rcases nonSerial_cases h with ⟨ha, rfl⟩ | ⟨ha, rfl⟩
  · exact nonSerial_held (s := { s with mode := m }) ha
  · exact (nonSerial_applied (s := { s with mode := m }) ha).trans (congrArg _ hf)

end Mode

/-- Settles O33: both effects let the mode through, and PWR_POLL is no writer of `CH`, `SETTLE` or
`ABUSY`. -/
theorem powerModeDoesNotReachAnalogPart : Obligations.PowerModeDoesNotReachAnalogPart := by
  refine ⟨fun s m i hi => ?_, fun s => ?_⟩
  · obtain ⟨t, hx⟩ := exec_exists_next i s
    have hmode := (exec_effect hx).power_writers
    rcases hi with rfl | ⟨r, rfl⟩
    · exact ⟨t, hx, nonSerial_setMode adcStart_setMode hx, (hmode.resolve_right nofun).1⟩
    · exact ⟨t, hx, nonSerial_setMode adcDone_setMode hx, (hmode.resolve_right nofun).1⟩
  · obtain ⟨t, hx⟩ := exec_exists_next .pwrPoll s
    have h := exec_effect hx
    obtain ⟨hsettle, hbusy⟩ := h.acquisition_writers.resolve_right (by simp)
    obtain ⟨hch, -⟩ := h.reading_writers.resolve_right (by simp)
    exact ⟨t, hx, hch, hsettle, hbusy⟩

end Sys2Proof.Machine

/-! The rolling average along a run (spec/43_average.md): the ring read oldest entry first is the window
of the latest accepted readings. One event accepts at most one reading, which is appended to the
window; the statement of R176 is the invariant of that history at the end of the run. -/

namespace Sys2Proof.Machine

/-! The valid ring entries in the order they were pushed (R37, R170, R171). -/

/-- The valid ring entries, oldest first: `RIDX` is the slot of the oldest once the ring is full, and
the number of entries before that. -/
def State.window (s : State) : List Nat :=
  ((s.ring.take s.rcnt.toNat).rotate s.ridx.toNat).map BitVec.toNat

section Window

variable {p : Config.Params} {s : State} {v : Millivolts}

/-- A rotation changes no sum, so the mean of R172 is that of the window. -/
theorem State.window_sum (s : State) : s.window.sum = s.ringSum :=
  ((List.rotate_perm ..).map _).sum_eq

theorem State.window_length (hr : s.ring.length = p.m) (hc : s.rcnt.toNat ≤ p.m) :
    s.window.length = s.rcnt.toNat := by
  simp [State.window, hr, hc]

/-- Until the ring is full the window is the ring's valid part as it stands. -/
theorem State.window_of_not_full (hr : s.ring.length = p.m) (hs : s.RingFilling p)
    (hc : s.rcnt.toNat < p.m) : s.window = (s.ring.take s.rcnt.toNat).map BitVec.toNat := by
  have hlen : (s.ring.take s.rcnt.toNat).length = s.rcnt.toNat := by simp [hr, hc.le]
  rw [State.window, hs.2 hc, ← congrArg (List.rotate _) hlen, List.rotate_length]

/-- The window of a full ring starts at slot `RIDX` and wraps. -/
theorem State.window_of_full (hr : s.ring.length = p.m) (hs : s.RingFilling p)
    (hc : s.rcnt.toNat = p.m) :
    s.window = (s.ring.drop s.ridx.toNat ++ s.ring.take s.ridx.toNat).map BitVec.toNat := by
  obtain ⟨⟨-, hlt⟩, -⟩ := hs
  rw [State.window, List.take_of_length_le (by omega),
    List.rotate_eq_drop_append_take (by omega)]

/-- A push into a ring with room appends the value: nothing is evicted. -/
theorem State.window_average_of_not_full (hm : 1 ≤ p.m ∧ p.m ≤ 255) (hr : s.ring.length = p.m)
    (hs : s.RingFilling p) (hc : s.rcnt.toNat < p.m) :
    (s.average p v).window = s.window ++ [v.toNat] := by
  have hring : (s.average p v).ring = s.ring.set s.rcnt.toNat v := by rw [← hs.2 hc]; rfl
  have hcount : (s.average p v).rcnt.toNat = s.rcnt.toNat + 1 := by
    rw [State.average_rcnt_toNat hm]
    omega
  have hpush : (s.ring.set s.rcnt.toNat v).take (s.rcnt.toNat + 1) =
      s.ring.take s.rcnt.toNat ++ [v] := by
    rw [List.take_add_one, List.take_set_of_le le_rfl, List.getElem?_set_self (by omega)]
    rfl
  have hlen : (s.ring.take s.rcnt.toNat ++ [v]).length = s.rcnt.toNat + 1 := by
    simp [hr, hc.le]
  have hrotate : (s.ring.take s.rcnt.toNat ++ [v]).rotate ((s.rcnt.toNat + 1) % p.m) =
      s.ring.take s.rcnt.toNat ++ [v] := by
    obtain hroom | hfull : s.rcnt.toNat + 1 < p.m ∨ s.rcnt.toNat + 1 = p.m := by omega
    · rw [Nat.mod_eq_of_lt hroom, ← hlen, List.rotate_length]
    · rw [hfull, Nat.mod_self, List.rotate_zero]
  rw [State.window, State.average_ridx_toNat hm, hs.2 hc, hring, hcount, hpush, hrotate,
    State.window_of_not_full hr hs hc, List.map_append]
  rfl

/-- A push into a full ring drops the oldest entry and appends the value (R171). -/
theorem State.window_average_of_full (hm : 1 ≤ p.m ∧ p.m ≤ 255) (hr : s.ring.length = p.m)
    (hs : s.RingFilling p) (hc : s.rcnt.toNat = p.m) :
    (s.average p v).window = s.window.drop 1 ++ [v.toNat] := by
  have hlt : s.ridx.toNat < s.ring.length := hr ▸ hs.1.2
  have hring : (s.average p v).ring = s.ring.set s.ridx.toNat v := rfl
  have hlen : (s.ring.set s.ridx.toNat v).length = p.m := by rw [List.length_set, hr]
  have hcount : (s.average p v).rcnt.toNat = p.m := by
    rw [State.average_rcnt_toNat hm]
    omega
  have hrotate : (s.ring.set s.ridx.toNat v).rotate ((s.ridx.toNat + 1) % p.m) =
      s.ring.drop (s.ridx.toNat + 1) ++ (s.ring.take s.ridx.toNat ++ [v]) := by
    rw [← hlen, List.rotate_mod, List.rotate_eq_drop_append_take (by rw [hlen]; omega),
      List.drop_set_of_lt (Nat.lt_succ_self _), List.take_add_one, List.take_set_of_le le_rfl,
      List.getElem?_set_self hlt]
    rfl
  rw [State.window, State.average_ridx_toNat hm, hring, hcount,
    List.take_of_length_le hlen.le, hrotate, State.window_of_full hr hs hc,
    List.drop_eq_getElem_cons hlt, List.cons_append, List.map_cons, List.drop_one, List.tail_cons,
    ← List.append_assoc, List.map_append]
  rfl

/-- The eviction law: a push keeps the `M` latest of the window and the value (R170, R171). -/
theorem State.window_average (hm : 1 ≤ p.m ∧ p.m ≤ 255) (hr : s.ring.length = p.m)
    (hs : s.RingFilling p) : (s.average p v).window = (s.window ++ [v.toNat]).rtake p.m := by
  have hlen := State.window_length hr hs.1.1
  have hsum : (s.window ++ [v.toNat]).length = s.rcnt.toNat + 1 := by simp [hlen]
  obtain hc | hc : s.rcnt.toNat < p.m ∨ s.rcnt.toNat = p.m := by omega
  · rw [State.window_average_of_not_full hm hr hs hc, List.rtake, Nat.sub_eq_zero_of_le (by omega),
      List.drop_zero]
  · rw [State.window_average_of_full hm hr hs hc, List.rtake, hsum, hc, Nat.add_sub_cancel_left,
      List.drop_append_of_le_length (by omega)]

/-- After a push the mean is the truncated mean of the window (R172). -/
theorem State.average_batAvgMv_toNat_window (hm : 1 ≤ p.m ∧ p.m ≤ 255)
    (hr : s.ring.length = p.m) :
    (s.average p v).batAvgMv.toNat =
      (s.average p v).window.sum / (s.average p v).window.length := by
  have hlen : (s.average p v).ring.length = p.m := (List.length_set ..).trans hr
  have hc : (s.average p v).rcnt.toNat ≤ p.m := by
    rw [State.average_rcnt_toNat hm]
    exact Nat.min_le_right ..
  rw [State.window_sum, State.window_length hlen hc, State.average_batAvgMv_toNat hm]

end Window

/-! What one event does to the average (R147 to R149, R178). -/

/-- The ring, its counters, the mean and the battery telemetry stand as in `t`. -/
structure State.SameAverage (s t : State) : Prop where
  ring : s.ring = t.ring
  ridx : s.ridx = t.ridx
  rcnt : s.rcnt = t.rcnt
  mean : s.batAvgMv = t.batAvgMv
  telemetry : s.batTel = t.batTel

theorem State.SameAverage.trans {s t u : State} (h : s.SameAverage t) (h' : t.SameAverage u) :
    s.SameAverage u :=
  ⟨h.ring.trans h'.ring, h.ridx.trans h'.ridx, h.rcnt.trans h'.rcnt, h.mean.trans h'.mean,
    h.telemetry.trans h'.telemetry⟩

theorem State.SameAverage.window_eq {s t : State} (h : s.SameAverage t) : s.window = t.window := by
  rw [State.window, State.window, h.ring, h.ridx, h.rcnt]

/-- The battery telemetry reads bytes 4 and 5 only (R23). -/
theorem State.batTel_congr {s t : State} (h : ∀ k, k = 4 ∨ k = 5 → s.tb[k]? = t.tb[k]?) :
    s.batTel = t.batTel := by
  rw [State.batTel, State.batTel, State.tbByte_of_getElem? (h 4 (.inl rfl)),
    State.tbByte_of_getElem? (h 5 (.inr rfl))]

section Event

variable {p : Config.Params} {i : Instr} {s t : State} {r : AdcCode}

theorem acceptedReadings_adcDone :
    acceptedReadings p [.adcDone r] s =
      if s.phase ≠ .active ∧ s.abusy = true ∧ p.settleN ≤ s.settle.toNat + 1 ∧ s.ch = .reference ∧
        referenceRejected p r = false then [referenceMv p r] else [] := by
  simp only [acceptedReadings, adcCode]
  split <;> simp

theorem acceptedReadings_of_not_adcDone (hi : isAdcDone i = false) :
    acceptedReadings p [i] s = [] := by
  have hcode : adcCode i = none := by simpa [isAdcDone] using hi
  simp only [acceptedReadings, hcode]
  split <;> rfl

/-- The battery telemetry bytes have no writer but ADC_DONE: with `13 ≤ L` the error byte lies above
them (R178). -/
theorem Effect.sameAverage_of_not_adcDone (h : Effect p s i t) (hl : 13 ≤ p.l)
    (hi : isAdcDone i = false) : t.SameAverage s := by
  have hno : ¬∃ r, i = .adcDone r := by rw [← isAdcDone_iff, hi]; decide
  obtain ⟨-, -, -, hmean, hring, hridx, hrcnt⟩ := h.reading_writers.resolve_right hno
  refine ⟨hring, hridx, hrcnt, hmean, State.batTel_congr fun k hk => ?_⟩
  refine (h.tb_writers k).resolve_right ?_
  rintro (⟨hlt, -⟩ | ⟨-, hdone⟩ | ⟨h6, -⟩ | ⟨h7, -⟩ | ⟨herr, -⟩)
  case inr.inl => exact hno hdone
  all_goals omega

/-- An event accepts no reading and leaves the average as it was, or accepts one and pushes it. -/
theorem Effect.average_cases (h : Effect p s i t) (hl : 13 ≤ p.l) (hceil : p.vCeilMv ≤ 65535) :
    (acceptedReadings p [i] s = [] ∧ t.SameAverage s) ∨
      ∃ v : Millivolts, acceptedReadings p [i] s = [v.toNat] ∧ t.SameAverage (s.average p v) := by
  by_cases hi : isAdcDone i = false
  · exact .inl ⟨acceptedReadings_of_not_adcDone hi, h.sameAverage_of_not_adcDone hl hi⟩
  obtain ⟨r, rfl⟩ := (isAdcDone_iff i).1 (by simpa using hi)
  rw [acceptedReadings_adcDone]
  cases h
  case accepted ha hb hs hc v tb mean htb hm hr hv =>
    obtain ⟨-, -, hle⟩ := (referenceRejected_eq_false p r).1 hr
    have hmv : v.toNat = referenceMv p r := by
      rw [hv]
      exact Nat.mod_eq_of_lt (by omega)
    exact .inr ⟨v, by rw [if_pos ⟨ha, hb, hs, hc, hr⟩, hmv],
      ⟨rfl, rfl, rfl, hm, State.batTel_congr fun _ _ => congrArg (·[_]?) htb⟩⟩
  all_goals refine .inl ⟨if_neg ?_, ⟨rfl, rfl, rfl, rfl, rfl⟩⟩
  case held ha _ => exact fun ⟨hn, _⟩ => hn ha
  case doneIgnored hb => exact fun ⟨_, hn, _⟩ => Bool.false_ne_true (hb.symm.trans hn)
  case unsettled hs => exact fun ⟨_, _, hn, _⟩ => Nat.not_le.2 hs hn
  case rejected hr => exact fun ⟨_, _, _, _, hn⟩ => Bool.false_ne_true (hn.symm.trans hr)
  case scaled hc _ _ => exact fun ⟨_, _, _, hn, _⟩ => Channel.noConfusion (hn.symm.trans hc)

end Event

/-! Runs and the readings they accept. -/

section Runs

variable {p : Config.Params} {i : Instr} {is : List Instr} {s u t : State} {os : List Output}

/-- A run that ends is its first event and the run of the others. -/
theorem runWith_cons_eq_some (h : runWith p (i :: is) s = some (t, os)) :
    ∃ u os', execWith p i s = .next u ∧ runWith p is u = some (t, os') := by
  rw [runWith] at h
  split at h
  case h_1 u hu =>
    obtain ⟨⟨t', os'⟩, hrun, heq⟩ := Option.map_eq_some_iff.1 h
    cases heq
    exact ⟨u, os', hu, hrun⟩
  all_goals exact absurd h nofun

theorem acceptedReadings_cons (h : execWith p i s = .next u) :
    acceptedReadings p (i :: is) s = acceptedReadings p [i] s ++ acceptedReadings p is u := by
  simp [acceptedReadings, h]

/-- A relation between the readings accepted so far and the state that every event keeps holds of the
readings of a whole run and its last state. -/
theorem runWith_keeps_history {P : List Nat → State → Prop}
    (event : ∀ {i vs s t}, Effect p s i t → P vs s → P (vs ++ acceptedReadings p [i] s) t)
    {vs : List Nat} (hs : P vs s) (hrun : runWith p is s = some (t, os)) :
    P (vs ++ acceptedReadings p is s) t := by
  induction is generalizing s vs os with
  | nil =>
    cases hrun
    simpa [acceptedReadings] using hs
  | cons i is ih =>
    obtain ⟨u, os', hu, hrest⟩ := runWith_cons_eq_some hrun
    rw [acceptedReadings_cons hu, ← List.append_assoc]
    exact ih (event (execWith_effect hu) hs) hrest

end Runs

/-! The exact-mean law (R176, R177). -/

/-- The state `s` after a run from `s₀` that has accepted the readings `vs`: the window holds the `M`
latest of them, and the mean is theirs, or that of `s₀` where there are none. -/
structure AverageHistory (p : Config.Params) (s₀ : State) (vs : List Nat) (s : State) : Prop where
  shape : s.Shape p
  filling : s.RingFilling p
  window : s.window = vs.rtake p.m
  unread : vs = [] → s.SameAverage s₀
  mean : vs ≠ [] → s.batAvgMv.toNat = s.window.sum / s.window.length

/-- Keeping the latest `n` before one more is appended loses none of the latest `n` after. -/
theorem rtake_rtake_concat {α : Type} (l : List α) (a : α) (n : Nat) :
    (l.rtake n ++ [a]).rtake n = (l ++ [a]).rtake n := by
  cases n with
  | zero => rw [List.rtake_zero, List.rtake_zero]
  | succ n =>
    rw [List.rtake_concat_succ, List.rtake_concat_succ]
    simp [List.rtake_eq_reverse_take_reverse, List.take_take]

theorem Effect.averageHistory {p : Config.Params} {i : Instr} {s₀ s t : State} {vs : List Nat}
    (h : Effect p s i t) (hw : p.wf = true) (hs : AverageHistory p s₀ vs s) :
    AverageHistory p s₀ (vs ++ acceptedReadings p [i] s) t := by
  obtain ⟨⟨hl, -⟩, hm, -, -, -, -, ⟨hceil, -⟩, -⟩ := (Config.Params.wf_iff p).1 hw
  obtain ⟨hshape, hfill, hwindow, hunread, hmean⟩ := hs
  have hshape' := h.shape hl hshape
  obtain ⟨-, -, -, hring⟩ := hshape
  have hfill' := h.ringFilling hm hfill
  rcases h.average_cases hl hceil with ⟨hnone, hsame⟩ | ⟨v, hone, hsame⟩
  · rw [hnone, List.append_nil]
    refine ⟨hshape', hfill', hsame.window_eq.trans hwindow, fun hvs => hsame.trans (hunread hvs),
      fun hvs => ?_⟩
    rw [hsame.window_eq, hsame.mean, hmean hvs]
  · rw [hone]
    refine ⟨hshape', hfill', ?_, fun hnil => absurd hnil (by simp), fun _ => ?_⟩
    · rw [hsame.window_eq, State.window_average hm hring hfill, hwindow, rtake_rtake_concat]
    · rw [hsame.window_eq, hsame.mean, State.average_batAvgMv_toNat_window hm hring]

/-- An empty ring has an empty history. -/
theorem AverageHistory.of_empty {p : Config.Params} {s : State} (hm : 1 ≤ p.m) (hs : s.Shape p)
    (hc : s.rcnt = 0) (hi : s.ridx = 0) : AverageHistory p s [] s where
  shape := hs
  filling := ⟨⟨hc ▸ Nat.zero_le p.m, hi ▸ hm⟩, fun _ => hi.trans hc.symm⟩
  window := by simp [State.window, hc]
  unread _ := ⟨rfl, rfl, rfl, rfl, rfl⟩
  mean h := absurd rfl h

/-- Settles O34: the history of the run, read at its last state. -/
theorem meanIsExactOverLatestReadings : Obligations.MeanIsExactOverLatestReadings := by
  intro p s t is os hw hshape hc hi hrun
  obtain ⟨-, hm, -⟩ := (Config.Params.wf_iff p).1 hw
  obtain ⟨-, -, hwindow, hunread, hmean⟩ :=
    runWith_keeps_history (P := AverageHistory p s) (fun h => h.averageHistory hw)
      (.of_empty hm.1 hshape hc hi) hrun
  rw [List.nil_append] at hwindow hunread hmean
  refine ⟨fun hnone => ?_, fun hsome => ?_⟩
  · have hsame := hunread hnone
    exact ⟨hsame.mean, hsame.telemetry, hsame.rcnt.trans hc⟩
  · have hlen : ((acceptedReadings p is s).rtake p.m).length =
        min (acceptedReadings p is s).length p.m := by
      rw [List.rtake, List.length_drop]
      omega
    rw [hmean hsome, hwindow, hlen, List.rtake]

end Sys2Proof.Machine

/-! The serial receiver (spec/44_serial.md): select and the frame it opens; one SPI_BYTE by the phase it
finds, from the record of everything a byte writes; what a frame holds after any number of its bytes, by
induction along the frame; and the clears of the error byte. -/

namespace Sys2Proof.Machine

/-! The hold of a frame (R300, R302). -/

theorem execWith_of_held {p : Config.Params} {i : Instr} {s : State} (ha : s.phase = .active)
    (hi : i.isSerial = false) : execWith p i s = .next (s.hold i) := by
  cases i
  case selAssert | selDeassert | spiByte => nomatch hi
  all_goals exact nonSerial_held ha

/-- Non-serial events inside a frame are held one after the other. -/
theorem runWith_of_held {p : Config.Params} {is : List Instr} {s : State} (ha : s.phase = .active)
    (hi : ∀ i ∈ is, i.isSerial = false) :
    ∃ os, runWith p is s = some ({ s with outputs := os, held := s.held ++ is.map encode }, []) := by
  induction is generalizing s with
  | nil => exact ⟨s.outputs, by simp [runWith]⟩
  | cons i is ih =>
    obtain ⟨hi, his⟩ := List.forall_mem_cons.1 hi
    obtain ⟨os, hrun⟩ := ih (s := s.hold i) ha his
    refine ⟨os, (runWith_cons (execWith_of_held ha hi) hrun).trans ?_⟩
    simp [State.hold]

/-- Settles O16: the run of holds writes the held words alone. -/
theorem hungMasterHoldsTheBlock : Obligations.HungMasterHoldsTheBlock := by
  intro p s is ha hi
  obtain ⟨os, hrun⟩ := runWith_of_held ha hi
  refine ⟨_, hrun, rfl, rfl, rfl, rfl, ?_⟩
  simp [State.finished, ha]

/-! The lengths of the arrays (R20, R61). -/

theorem State.Shape.err_lt {p : Config.Params} {s : State} (hs : s.Shape p) (hl : 13 ≤ p.l) :
    p.l - 2 < s.tb.length := by
  obtain ⟨htb, -⟩ := hs
  omega

theorem State.Shape.txbuf_length {p : Config.Params} {s : State} (hs : s.Shape p) :
    s.txbuf.length = p.l := by
  obtain ⟨-, htx, -⟩ := hs
  exact htx

theorem State.Shape.cmd_length {p : Config.Params} {s : State} (hs : s.Shape p) :
    s.cmd.length = p.l := by
  obtain ⟨-, -, hcmd, -⟩ := hs
  exact hcmd

/-! Select (R190, R191, R193, R208). -/

section Select

variable {p : Config.Params} {s : State}

theorem selAssert_of_selected (h : s.sel = true) : selAssert p s = s := by simp [selAssert, h]

theorem selAssert_of_lowPower (h : s.sel = false) (hm : s.mode = .lowPower) :
    selAssert p s = { s with sel := true } := by simp [selAssert, h, hm]

theorem selAssert_of_active (h : s.sel = false) (hm : s.mode = .active) :
    selAssert p s = { s with sel := true }.openFrame p := by simp [selAssert, h, hm]

theorem selDeassert_of_selected (h : s.sel = true) :
    selDeassert s = { s with sel := false, phase := .idle } := by simp [selDeassert, h]

theorem selDeassert_of_not_selected (h : s.sel = false) : selDeassert s = s := by
  simp [selDeassert, h]

theorem execWith_selAssert (p : Config.Params) (s : State) :
    execWith p .selAssert s = .next (selAssert p s.quiet) := rfl

theorem execWith_selDeassert (p : Config.Params) (s : State) :
    execWith p .selDeassert s = .next (selDeassert s.quiet) := rfl

/-- The snapshot is the telemetry image and the acknowledgement slot as it stood. -/
theorem State.snapshot_eq (hs : s.Shape p) : s.snapshot p = s.tb ++ s.txbuf.drop (p.l - 1) := by
  obtain ⟨htb, -⟩ := hs
  rw [State.snapshot, List.take_of_length_le htb.le]

theorem State.snapshot_length (hs : s.Shape p) (hl : 1 ≤ p.l) : (s.snapshot p).length = p.l := by
  obtain ⟨htb, htx, -⟩ := hs
  rw [State.snapshot, List.length_append, List.length_take, List.length_drop]
  omega

theorem State.snapshot_getElem?_of_lt (hs : s.Shape p) {k : Nat} (hk : k < p.l - 1) :
    (s.snapshot p)[k]? = s.tb[k]? := by
  have htb : s.tb.length = p.l - 1 := hs.1
  rw [State.snapshot_eq hs, List.getElem?_append_left (hk.trans_eq htb.symm)]

theorem State.snapshot_getElem?_last (hs : s.Shape p) :
    (s.snapshot p)[p.l - 1]? = s.txbuf[p.l - 1]? := by
  have htb : s.tb.length = p.l - 1 := hs.1
  rw [State.snapshot_eq hs, List.getElem?_append_right htb.le, htb, List.getElem?_drop,
    Nat.sub_self, Nat.add_zero]

end Select

/-- Settles O35: the three branches of SEL_ASSERT, the last with the snapshot byte by byte. -/
theorem selectAssertOpensAFrame : Obligations.SelectAssertOpensAFrame := by
  intro s hs
  simp only [exec_eq_execWith, execWith_selAssert]
  refine ⟨fun h => ?_, fun h hm => ?_, fun h hm => ?_⟩
  · rw [selAssert_of_selected (s := s.quiet) h]
    rfl
  · rw [selAssert_of_lowPower (s := s.quiet) h hm]
    rfl
  · rw [selAssert_of_active (s := s.quiet) h hm]
    exact ⟨_, rfl, fun k hk => State.snapshot_getElem?_of_lt hs hk,
      State.snapshot_getElem?_last hs, State.snapshot_length hs (by decide), rfl, rfl⟩

/-- Settles O36: the two branches of SEL_DEASSERT. -/
theorem selectDeassertEndsTheFrame : Obligations.SelectDeassertEndsTheFrame := by
  intro s
  simp only [exec_eq_execWith, execWith_selDeassert]
  exact ⟨fun h => congrArg _ (selDeassert_of_selected (s := s.quiet) h),
    fun h => congrArg _ (selDeassert_of_not_selected (s := s.quiet) h)⟩

/-! The error bits of one byte (R261, R262). -/

section Errors

variable {phase : Phase} {pos : BitVec 8} {seq rx : Byte} {ovf wcol : Bool}

theorem errIf_eq_zero_iff {c : Bool} {m : Byte} (hm : m ≠ 0#8) : errIf c m = 0#8 ↔ ¬c = true := by
  cases c
  · exact iff_of_true rfl (by decide)
  · exact iff_of_false hm (by decide)

theorem errIf_getLsbD (c : Bool) (m : Byte) (k : Nat) :
    (errIf c m).getLsbD k = (c && m.getLsbD k) := by
  cases c <;> simp [errIf]

/-- A byte raises no error bit exactly where none of the four conditions holds. -/
theorem spiErrors_eq_zero_iff :
    spiErrors phase pos seq ovf wcol rx = 0 ↔
      ¬(ovf = true ∨ wcol = true ∨ phase ≠ .active ∨ (pos = 0 ∧ rx ≠ 0 ∧ rx ≠ seq)) := by
  rw [spiErrors, BitVec.ofNat_eq_ofNat, BitVec.or_eq_zero_iff, BitVec.or_eq_zero_iff,
    BitVec.or_eq_zero_iff, errIf_eq_zero_iff (by decide), errIf_eq_zero_iff (by decide),
    errIf_eq_zero_iff (by decide), errIf_eq_zero_iff (by decide)]
  simp only [Bool.and_eq_true, beq_iff_eq, bne_iff_ne]
  tauto

/-- The conditions of a byte of an open frame. -/
theorem spiErrors_active :
    spiErrors .active pos seq ovf wcol rx =
      (if ovf then 0x02 else 0) ||| (if wcol then 0x04 else 0) |||
        (if pos = 0 ∧ rx ≠ 0 ∧ rx ≠ seq then 0x10 else 0) := by
  simp only [spiErrors, errIf, errOverflow, errOverwrite, errSeqMismatch, BitVec.ofNat_eq_ofNat,
    BEq.rfl, Bool.true_and, Bool.and_eq_true, beq_iff_eq, bne_iff_ne, ne_eq, and_assoc,
    bne_self_eq_false, Bool.false_eq_true, if_false, BitVec.or_zero]
  ac_rfl

/-- Past position 0 the declared id is no concern of a byte. -/
theorem spiErrors_active_of_pos_ne_zero (h : pos ≠ 0) :
    spiErrors .active pos seq ovf wcol rx =
      (if ovf then 0x02 else 0) ||| (if wcol then 0x04 else 0) := by
  rw [spiErrors_active, if_neg (c := pos = 0 ∧ rx ≠ 0 ∧ rx ≠ seq) fun hp => h hp.1]
  exact BitVec.or_zero

/-- Of a byte of an open frame the declared id alone raises SEQ_MISMATCH, bit 4 (R201). -/
theorem spiErrors_active_getLsbD_four :
    (spiErrors .active pos seq ovf wcol rx).getLsbD 4 = true ↔ pos = 0 ∧ rx ≠ 0 ∧ rx ≠ seq := by
  simp only [spiErrors, BitVec.getLsbD_or, errIf_getLsbD]
  simp [errOverflow, errOverwrite, errOutOfIndex, errSeqMismatch, and_assoc]

theorem spiErrors_of_not_active (h : phase ≠ .active) :
    spiErrors phase pos seq ovf wcol rx =
      0x08 ||| (if ovf then 0x02 else 0) ||| (if wcol then 0x04 else 0) := by
  simp only [spiErrors, errIf, errOverflow, errOverwrite, errOutOfIndex, BitVec.ofNat_eq_ofNat,
    Bool.and_eq_true, beq_iff_eq, h, false_and, bne_iff_ne, ne_eq, if_false, BitVec.or_zero,
    not_false_eq_true, if_true]
  ac_rfl

end Errors

/-! One SPI_BYTE (R195 to R207). -/

section Byte

variable {p : Config.Params} {s : State} {ovf wcol : Bool} {rx : Byte}

/-- Everything a byte of an open frame writes, before completion (R195 to R200, R203, R206). -/
def State.openByte (p : Config.Params) (ovf wcol : Bool) (rx : Byte) (s : State) : State :=
  let e := spiErrors .active s.pos s.seq ovf wcol rx
  { s with
    tb := s.tb.set (p.l - 2) (s.err p ||| e)
    cmd := s.cmd.set s.pos.toNat rx
    seq := if s.pos = 0 then rx + 1 else s.seq
    txbuf := if s.pos = 0 then s.txbuf.set (p.l - 1) (rx + 1) else s.txbuf
    pos := s.pos + 1
    txcorrupt := wcol
    outputs := .miso (if s.txcorrupt then Config.any8 s.draws else s.txbuf.getD s.pos.toNat 0) ::
      (if e = 0 then [] else [.errEvt])
    draws := if s.txcorrupt then s.draws + 1 else s.draws }

/-- With the transmit image at its length the reply of an open frame is never the model's stand-in for a
position outside it. -/
theorem State.afterByte_eq_openByte (ha : s.phase = .active) (hp : s.pos.toNat < s.txbuf.length) :
    s.quiet.afterByte p ovf wcol rx = s.openByte p ovf wcol rx := by
  have hreply : s.quiet.replyByte =
      if s.txcorrupt then Config.any8 s.draws else s.txbuf.getD s.pos.toNat 0 := by
    simp [State.replyByte, ha, hp]
  have hdraws : s.quiet.replyDraws = if s.txcorrupt then s.draws + 1 else s.draws := by
    simp [State.replyDraws, ha, Nat.not_le.2 hp]
  simp only [State.afterByte, State.openByte, hreply, hdraws, State.quiet_phase, ha, true_and,
    if_true]
  rfl

theorem State.openByte_err (h : p.l - 2 < s.tb.length) :
    (s.openByte p ovf wcol rx).err p = s.err p ||| spiErrors .active s.pos s.seq ovf wcol rx :=
  State.tbByte_writeTb_same s _ h

theorem State.openByte_getElem? {k : Nat} (hk : k ≠ p.l - 2) :
    (s.openByte p ovf wcol rx).tb[k]? = s.tb[k]? := State.getElem?_writeTb_ne s _ hk

/-- The state after the completion of a frame whose last byte left the state `s` (R204, R205). -/
def State.completed (p : Config.Params) (s : State) : State :=
  { s with phase := .done, tb := s.completedTb p }

theorem State.tbByte_clearCounters (s : State) {k : Nat} (hk : k < 4) :
    s.clearCounters.tbByte k = 0 := by
  have zeroed (t : State) (j : Nat) :
      (t.writeTb j 0).tbByte k = if k = j then 0 else t.tbByte k := by
    split
    · next h =>
      subst h
      by_cases hlen : k < t.tb.length
      · exact State.tbByte_writeTb_same t _ hlen
      · simp [State.tbByte, hlen]
    · next h => exact State.tbByte_writeTb_ne t _ h
  simp only [State.clearCounters_eq, zeroed]
  interval_cases k <;> rfl

theorem State.completed_counters (p : Config.Params) (s : State) {k : Nat} (hk : k < 4) :
    (s.completed p).tbByte k = 0 := State.tbByte_clearCounters _ hk

theorem State.completed_err (hl : 13 ≤ p.l) (htb : s.tb.length = p.l - 1) :
    (s.completed p).err p = if s.cmd.head? = some 1 then p.errNone else s.err p := by
  rw [State.err, State.tbByte, List.getD_eq_getElem?_getD, State.completed,
    State.completedTb_getElem? p s (by omega)]
  split
  · rw [List.getElem?_set_self (by omega)]
    rfl
  · rfl

theorem State.completed_getElem? {k : Nat} (h4 : 4 ≤ k) (hk : k ≠ p.l - 2) :
    (s.completed p).tb[k]? = s.tb[k]? := by
  rw [State.completed, State.completedTb_getElem? p s h4]
  split
  · exact List.getElem?_set_ne hk.symm
  · rfl

/-! The answers of an SPI_BYTE in a frame: before the last byte, at it, and after it. -/

theorem execWith_spiByte (p : Config.Params) (ovf wcol : Bool) (rx : Byte) (s : State) :
    execWith p (.spiByte ovf wcol rx) s = .next (spiByte p ovf wcol rx s.quiet) := rfl

/-- The position does not wrap on its way to a frame length, which is at most 255. -/
theorem pos_succ_toNat {pos : BitVec 8} {n : Nat} (hn : n ≤ 255) (h : pos.toNat < n) :
    (pos + 1).toNat = pos.toNat + 1 := by bv_omega

theorem execWith_spiByte_inside (hl : p.l ≤ 255) (hs : s.Shape p) (ha : s.phase = .active)
    (hpos : s.pos.toNat + 1 < p.l) :
    execWith p (.spiByte ovf wcol rx) s = .next (s.openByte p ovf wcol rx) := by
  have hlt : s.pos.toNat < p.l := Nat.lt_of_succ_lt hpos
  have hopen : (s.openByte p ovf wcol rx).complete p = s.openByte p ovf wcol rx :=
    if_neg fun h => hpos.ne ((pos_succ_toNat hl hlt).symm.trans h.2)
  rw [execWith_spiByte, spiByte_eq p ovf wcol rx s.quiet (by simp [ha]),
    State.afterByte_eq_openByte ha (hlt.trans_eq hs.txbuf_length.symm), hopen]

theorem execWith_spiByte_last (hl : p.l ≤ 255) (hs : s.Shape p) (ha : s.phase = .active)
    (hpos : s.pos.toNat + 1 = p.l) :
    execWith p (.spiByte ovf wcol rx) s = .next ((s.openByte p ovf wcol rx).completed p) := by
  have hlt : s.pos.toNat < p.l := Nat.lt_of_succ_le hpos.le
  have hfull : (s.openByte p ovf wcol rx).phase = .active ∧
      (s.openByte p ovf wcol rx).pos.toNat = p.l := ⟨ha, (pos_succ_toNat hl hlt).trans hpos⟩
  obtain ⟨-, -, hdone⟩ := (State.complete_cases p _).resolve_right fun h => h.1 hfull
  rw [execWith_spiByte, spiByte_eq p ovf wcol rx s.quiet (by simp [ha]),
    State.afterByte_eq_openByte ha (hlt.trans_eq hs.txbuf_length.symm), hdone]
  rfl

theorem execWith_spiByte_after (h : s.phase = .done ∨ s.phase = .aborted) :
    execWith p (.spiByte ovf wcol rx) s =
      .next { s with
        tb := s.tb.set (p.l - 2) (s.err p ||| spiErrors s.phase s.pos s.seq ovf wcol rx)
        phase := .aborted
        txcorrupt := wcol
        draws := s.draws + 1
        outputs := [.miso (Config.any8 s.draws), .errEvt] } := by
  have ha : s.phase ≠ .active := by rcases h with h | h <;> simp [h]
  have hi : s.phase ≠ .idle := by rcases h with h | h <;> simp [h]
  have he : spiErrors s.phase s.pos s.seq ovf wcol rx ≠ 0 := fun h0 =>
    spiErrors_eq_zero_iff.1 h0 (.inr (.inr (.inl ha)))
  have haborted : (s.quiet.afterByte p ovf wcol rx).complete p = s.quiet.afterByte p ovf wcol rx :=
    if_neg fun hc => by simp [State.afterByte, ha] at hc
  rw [execWith_spiByte, spiByte_eq p ovf wcol rx s.quiet hi, haborted, State.afterByte]
  simp only [State.quiet_phase, State.quiet_pos, State.quiet_seq, ha, he, false_and, if_false,
    State.replyByte, State.replyDraws, ne_eq, not_false_iff, true_or, or_true, if_true]
  rfl

theorem State.complete_outputs (p : Config.Params) (s : State) :
    (s.complete p).outputs = s.outputs := by
  rcases State.complete_cases p s with ⟨-, -, h⟩ | ⟨-, h⟩ <;> rw [h]

/-- The strobe of a byte, completed or not. -/
theorem spiByte_count_errEvt (hi : s.phase ≠ .idle) :
    (spiByte p ovf wcol rx s.quiet).outputs.count .errEvt =
      if spiErrors s.phase s.pos s.seq ovf wcol rx = 0 then 0 else 1 := by
  rw [spiByte_eq p ovf wcol rx s.quiet hi, State.complete_outputs]
  by_cases he : spiErrors s.phase s.pos s.seq ovf wcol rx = 0
  · simp only [State.afterByte, State.quiet_phase, State.quiet_pos, State.quiet_seq, he, if_true]
    rfl
  · simp only [State.afterByte, State.quiet_phase, State.quiet_pos, State.quiet_seq, he, if_false]
    rfl

end Byte

/-- Settles O37: outside a frame a byte takes a draw and no more. -/
theorem byteOutsideAFrameIsIgnored : Obligations.ByteOutsideAFrameIsIgnored := by
  intro s ovf wcol rx hi
  rw [exec_eq_execWith, execWith_spiByte, spiByte_idle _ _ _ _ s.quiet hi]
  rfl

/-- Settles O38: the record of a byte of an open frame. -/
theorem byteInsideAFrame : Obligations.ByteInsideAFrame := by
  intro s ovf wcol rx hs ha hpos e
  have he : e = spiErrors .active s.pos s.seq ovf wcol rx := spiErrors_active.symm
  rw [he, exec_eq_execWith, execWith_spiByte_inside (by decide) hs ha hpos]
  exact ⟨_, rfl, rfl, rfl, rfl, rfl, rfl, rfl, State.openByte_err (hs.err_lt (by decide)),
    fun _ hk => State.openByte_getElem? hk, rfl⟩

/-- Settles O39: the record of the byte, then what completion makes of it. -/
theorem lastByteCompletesTheFrame : Obligations.LastByteCompletesTheFrame := by
  intro s ovf wcol rx hs ha hpos e
  have hpos0 : s.pos.toNat ≠ 0 := by rw [Config.params_l] at hpos; omega
  have hne : s.pos ≠ 0 := fun h0 => hpos0 (congrArg BitVec.toNat h0)
  have he : e = spiErrors .active s.pos s.seq ovf wcol rx :=
    (spiErrors_active_of_pos_ne_zero hne).symm
  have htb : s.tb.length = Config.params.l - 1 := hs.1
  have hid : (s.cmd.set s.pos.toNat rx).head? = s.cmd[0]? := by
    rw [List.head?_eq_getElem?, List.getElem?_set_ne hpos0]
  rw [he, exec_eq_execWith, execWith_spiByte_last (by decide) hs ha hpos]
  refine ⟨_, rfl, rfl, rfl, rfl, (pos_succ_toNat (n := 20) (by decide) hpos.le).trans hpos, ?_,
    fun k hk => State.completed_counters _ _ hk,
    (State.attn_eq_false_iff _).2 fun k hk => State.completed_counters _ _ hk, rfl,
    fun k h4 hk => (State.completed_getElem? h4 hk).trans (State.openByte_getElem? hk), ?_⟩
  · rw [State.completed_err (by decide) (List.length_set.trans htb), ← hid,
      State.openByte_err (hs.err_lt (by decide))]
    rfl
  · simp only [State.completed, State.openByte, if_neg hne]

/-- Settles O40: after the frame a byte raises OUT_OF_INDEX at least, so the strobe comes with it. -/
theorem byteAfterTheFrameIsOutOfIndex : Obligations.ByteAfterTheFrameIsOutOfIndex := by
  intro s ovf wcol rx hs h
  have ha : s.phase ≠ .active := by rcases h with h | h <;> simp [h]
  rw [exec_eq_execWith, execWith_spiByte_after h]
  refine ⟨_, rfl, ?_, fun _ hk => State.getElem?_writeTb_ne s _ hk, rfl⟩
  refine (State.tbByte_writeTb_same s _ (hs.err_lt (by decide))).trans ?_
  rw [spiErrors_of_not_active ha, ← BitVec.or_assoc, ← BitVec.or_assoc]

/-- Settles O41: position 0 of the record, and bit 4 of the conditions. -/
theorem sequenceIdLaws : Obligations.SequenceIdLaws := by
  intro s ovf wcol rx hs ha h0
  have herr : (s.openByte Config.params ovf wcol rx).err Config.params =
      s.err Config.params ||| spiErrors .active s.pos s.seq ovf wcol rx :=
    State.openByte_err (hs.err_lt (by decide))
  have hbit : (spiErrors .active s.pos s.seq ovf wcol rx).getLsbD 4 = true ↔
      s.pos = 0 ∧ rx ≠ 0 ∧ rx ≠ s.seq := spiErrors_active_getLsbD_four
  rw [exec_eq_execWith, execWith_spiByte_inside (by decide) hs ha (by rw [h0]; decide)]
  refine ⟨_, rfl, if_pos h0, ?_, fun hclear => ?_, fun hseq => ?_⟩
  · simp only [State.openByte, if_pos h0]
    exact List.getElem?_set_self (by rw [hs.txbuf_length]; decide)
  · rw [herr, BitVec.getLsbD_or, hclear, Bool.false_or, hbit]
    exact and_iff_right h0
  · have hquiet := mt hbit.1 fun ⟨_, _, hne⟩ => hne hseq
    rw [herr, BitVec.getLsbD_or, Bool.eq_false_of_not_eq_true hquiet, Bool.or_false]

/-- The strobe is an SPI_BYTE's alone (R206). -/
theorem Effect.spiByte_of_errEvt_mem {p : Config.Params} {i : Instr} {s t : State}
    (h : Effect p s i t) (hmem : .errEvt ∈ t.outputs) : ∃ ovf wcol rx, i = .spiByte ovf wcol rx := by
  cases h
  case byteIdle | byteTaken | completed => exact ⟨_, _, _, rfl⟩
  all_goals simp at hmem

/-- Settles O42: the strobe is emitted where a condition holds, and no other event emits it. -/
theorem errorStrobePerFaultyByte : Obligations.ErrorStrobePerFaultyByte := by
  refine ⟨fun s ovf wcol rx => ?_, fun s t i hx => (exec_effect hx).spiByte_of_errEvt_mem⟩
  rw [exec_eq_execWith, execWith_spiByte]
  refine ⟨_, rfl, ?_⟩
  by_cases hi : s.phase = .idle
  · rw [spiByte_idle _ _ _ _ s.quiet hi, if_neg fun h => h.1 hi]
    rfl
  · rw [spiByte_count_errEvt hi]
    simp only [spiErrors_eq_zero_iff, hi, ite_not, ne_eq, not_false_iff, true_and]

/-! The clears of the error byte (R204, R212, R244, R290). -/

section Clears

variable {p : Config.Params} {i : Instr} {s t : State}

/-- The `L`-th byte of a frame with declared id 1 clears the error byte. -/
structure ClearRule (p : Config.Params) (i : Instr) (s t : State) : Prop where
  byte : ∃ ovf wcol rx, i = .spiByte ovf wcol rx
  phase : s.phase = .active
  last : s.pos.toNat + 1 = p.l
  declared : s.cmd[0]? = some 1
  cleared : t.err p = p.errNone

/-- A PWR_POLL that wakes the block clears the error byte. -/
structure WakeClear (p : Config.Params) (i : Instr) (s t : State) : Prop where
  poll : i = .pwrPoll
  asleep : s.mode = .lowPower
  awake : t.mode = .active
  cleared : t.err p = p.errNone

theorem State.afterByte_err (ovf wcol : Bool) (rx : Byte) (h : p.l - 2 < s.tb.length) :
    (s.afterByte p ovf wcol rx).err p = s.err p ||| spiErrors s.phase s.pos s.seq ovf wcol rx :=
  State.tbByte_writeTb_same s _ h

theorem Effect.err_of_spiByte {ovf wcol : Bool} {rx : Byte} (h : Effect p s (.spiByte ovf wcol rx) t)
    (hl : 13 ≤ p.l) (hs : s.Shape p) :
    (∃ e, t.err p = s.err p ||| e) ∨ ClearRule p (.spiByte ovf wcol rx) s t := by
  have htb : s.tb.length = p.l - 1 := hs.1
  have hlt : p.l - 2 < s.quiet.tb.length := hs.err_lt hl
  cases h
  case held hn => nomatch hn
  case byteIdle => exact .inl ⟨0, BitVec.or_zero.symm⟩
  case byteTaken => exact .inl ⟨_, State.afterByte_err (s := s.quiet) ovf wcol rx hlt⟩
  case completed ha hc =>
    have hpos : s.pos.toNat + 1 = p.l := by bv_omega
    have hcmd : (s.quiet.afterByte p ovf wcol rx).cmd.head? = s.cmd[0]? := by
      simp only [State.afterByte, State.quiet_phase, ha, if_true, List.head?_eq_getElem?]
      exact List.getElem?_set_ne (by rw [State.quiet_pos]; omega)
    have herr := State.completed_err (s := s.quiet.afterByte p ovf wcol rx) hl
      (List.length_set.trans htb)
    rw [hcmd] at herr
    by_cases hid : s.cmd[0]? = some 1
    · rw [if_pos hid] at herr
      exact .inr ⟨⟨_, _, _, rfl⟩, ha, hpos, hid, herr⟩
    · rw [if_neg hid, State.afterByte_err ovf wcol rx hlt] at herr
      exact .inl ⟨_, herr⟩

theorem Effect.err_of_pwrPoll (h : Effect p s .pwrPoll t) (hl : 13 ≤ p.l) (hs : s.Shape p) :
    t.err p = s.err p ∨ WakeClear p .pwrPoll s t := by
  cases h
  case woken hm _ =>
    exact .inr ⟨rfl, hm, rfl, State.tbByte_writeTb_same s _ (hs.err_lt hl)⟩
  all_goals exact .inl rfl

/-- An event adds bits to the error byte, or is one of the two that clear it. -/
theorem Effect.err_cases (h : Effect p s i t) (hl : 13 ≤ p.l) (hs : s.Shape p) :
    (∃ e, t.err p = s.err p ||| e) ∨ ClearRule p i s t ∨ WakeClear p i s t := by
  have kept (h : t.err p = s.err p) : ∃ e, t.err p = s.err p ||| e :=
    ⟨0, h.trans BitVec.or_zero.symm⟩
  rcases h.tb_writers (p.l - 2) with hsame | ⟨h4, -⟩ | ⟨h45, -⟩ | ⟨h6, -⟩ | ⟨-, h10, -⟩ | ⟨-, hi⟩
  · exact .inl (kept (State.tbByte_of_getElem? hsame))
  iterate 4 omega
  · rcases hi with ⟨ovf, wcol, rx, rfl⟩ | rfl
    · exact (h.err_of_spiByte hl hs).imp_right .inl
    · exact (h.err_of_pwrPoll hl hs).imp kept .inr

/-- Adding bits to an error byte clears none. -/
theorem getLsbD_or_ne_false {a e : Byte} {b : Nat} (hset : a.getLsbD b = true) :
    (a ||| e).getLsbD b ≠ false := by simp [hset]

theorem State.applyReset_atReset (p : Config.Params) (s : State) : (s.applyReset p).AtReset p :=
  ⟨rfl, rfl, ⟨rfl, rfl⟩, ⟨rfl, rfl, rfl⟩, ⟨rfl, rfl, rfl⟩, ⟨rfl, rfl, rfl⟩, ⟨rfl, rfl, rfl, rfl⟩,
    ⟨rfl, rfl, rfl⟩, ⟨rfl, rfl⟩⟩

end Clears

/-- Settles O43: of the four things a step can do, waiting and refusing a word leave the error byte, and
an event that takes a bit from it is one of the two that clear it. -/
theorem onlyThreeClearsOfErrors : Obligations.OnlyThreeClearsOfErrors := by
  intro s t b _ _ hs h hset hclear
  have kept {u : State} {x : Delivery} (hu : s.takeInput = (x, u)) {e : Byte}
      (ht : t.err Config.params = u.err Config.params ||| e) : False := by
    rw [ht, State.takeInput_frame hu] at hclear
    exact getLsbD_or_ne_false hset hclear
  rcases deliver_cases h with ⟨u, hu, rfl⟩ | ⟨u, hu, rfl⟩ | ⟨w, u, e, hu, -, rfl⟩ |
    ⟨w, u, i, hu, hi, hx⟩
  · exact (kept hu (e := 0) BitVec.or_zero.symm).elim
  · exact .inr (.inr ⟨u, hu, u.applyReset_atReset _⟩)
  · exact (kept hu (e := 0) BitVec.or_zero.symm).elim
  · have hshape : u.Shape Config.params := by rw [State.takeInput_frame hu]; exact hs
    rcases (exec_effect hx).err_cases (by decide) hshape with ⟨e, he⟩ |
      ⟨⟨ovf, wcol, rx, rfl⟩, ha, hpos, hid, hnone⟩ | ⟨rfl, hlow, hact, hnone⟩
    · exact (kept hu he).elim
    · rw [State.takeInput_frame hu] at ha hpos hid
      exact .inl ⟨w, u, ovf, wcol, rx, hu, hi, ha, hpos, hid, hnone⟩
    · rw [State.takeInput_frame hu] at hlow
      exact .inr (.inl ⟨w, u, hu, hi, hlow, hact, hnone⟩)

/-! The bytes of a frame (R192, R194, R210). -/

/-- One byte of a frame with its `ovf` and `wcol` flags. -/
abbrev FrameByte := Bool × Bool × Byte

/-- The event of one byte of a frame. -/
def FrameByte.event (b : FrameByte) : Instr := .spiByte b.1 b.2.1 b.2.2

/-- The error bits the bytes of an open frame raise, `seq` being `SEQ` before the first. -/
def frameErrors (seq : Byte) (bs : List FrameByte) : Byte :=
  errIf (bs.any fun b => b.1) errOverflow ||| errIf (bs.any fun b => b.2.1) errOverwrite |||
    errIf ((bs.take 1).any fun b => b.2.2 != 0 && b.2.2 != seq) errSeqMismatch

theorem runWith_append {p : Config.Params} {is js : List Instr} {s u t : State}
    {os os' : List Output} (his : runWith p is s = some (u, os))
    (hjs : runWith p js u = some (t, os')) : runWith p (is ++ js) s = some (t, os ++ os') := by
  induction is generalizing s os with
  | nil =>
    cases his
    exact hjs
  | cons i is ih =>
    obtain ⟨v, os₁, hi, hrest⟩ := runWith_cons_eq_some his
    rw [runWith_cons hi hrest] at his
    cases his
    rw [List.cons_append, runWith_cons hi (ih hrest), List.append_assoc]

/-- Writing the entry just after an initial part extends that part by it. -/
theorem set_append_drop {α : Type} {pre l : List α} {x : α} (h : pre.length < l.length) :
    (pre ++ l.drop pre.length).set pre.length x = (pre ++ [x]) ++ l.drop (pre.length + 1) := by
  rw [List.set_append_right _ _ le_rfl, Nat.sub_self, List.drop_eq_getElem_cons h,
    List.set_cons_zero, List.append_assoc, List.singleton_append]

theorem replyBytes_append (os os' : List Output) :
    replyBytes (os ++ os') = replyBytes os ++ replyBytes os' := List.filterMap_append

theorem frameErrors_nil (seq : Byte) : frameErrors seq [] = 0#8 := by simp [frameErrors, errIf]

theorem errIf_false (m : Byte) : errIf false m = 0#8 := rfl

theorem errIf_or (c d : Bool) (m : Byte) : errIf (c || d) m = errIf c m ||| errIf d m := by
  cases c <;> cases d <;> simp [errIf]

/-- What an open frame holds after its bytes `bs`, `o` being the state in which it opened and `os` the
outputs of the bytes. -/
structure FrameProgress (p : Config.Params) (o : State) (bs : List FrameByte) (s : State)
    (os : List Output) : Prop where
  shape : s.Shape p
  selected : s.sel = true
  phase : s.phase = .active
  pos : s.pos.toNat = bs.length
  cmd : s.cmd = bs.map (fun b => b.2.2) ++ o.cmd.drop bs.length
  unread : bs = [] → s.seq = o.seq ∧ s.txbuf = o.txbuf
  acknowledged : ∀ b ∈ bs.head?, s.seq = b.2.2 + 1 ∧ s.txbuf = o.txbuf.set (p.l - 1) (b.2.2 + 1)
  tb : s.tb = o.tb.set (p.l - 2) (o.err p ||| frameErrors o.seq bs)
  replies : (∀ b ∈ bs, b.2.1 = false) →
    s.txcorrupt = false ∧ replyBytes os = s.txbuf.take bs.length

section Frame

variable {p : Config.Params} {o s t : State} {bs : List FrameByte} {os : List Output}

/-- The frame that SEL_ASSERT opens in ACTIVE mode. -/
def State.opened (p : Config.Params) (s : State) : State := { s.quiet with sel := true }.openFrame p

theorem FrameProgress.opened (hl : 1 ≤ p.l) (hs : s.Shape p) :
    FrameProgress p (s.opened p) [] (s.opened p) [] where
  shape := by
    obtain ⟨htb, -, hcmd, hring⟩ := id hs
    exact ⟨htb, State.snapshot_length hs hl, hcmd, hring⟩
  selected := rfl
  phase := rfl
  pos := rfl
  cmd := rfl
  unread _ := ⟨rfl, rfl⟩
  acknowledged := nofun
  tb := by rw [frameErrors_nil, BitVec.or_zero, State.set_err]
  replies _ := ⟨rfl, rfl⟩

/-- One more byte raises its own error bits: the id is judged at position 0 against the `SEQ` of the
opening. -/
theorem frameErrors_concat {seq seq' : Byte} {pos : BitVec 8} (b : FrameByte)
    (hpos : pos.toNat = bs.length) (hseq : bs = [] → seq' = seq) :
    frameErrors seq (bs ++ [b]) =
      frameErrors seq bs ||| spiErrors .active pos seq' b.1 b.2.1 b.2.2 := by
  cases bs with
  | nil =>
    have h0 : pos = 0 := BitVec.eq_of_toNat_eq hpos
    simp only [List.nil_append, frameErrors, spiErrors, h0, hseq, List.any_cons,
      List.any_nil, Bool.or_false, List.take_succ_cons, List.take_nil, BEq.rfl, Bool.true_and,
      bne_self_eq_false, errIf_false, BitVec.zero_or, BitVec.or_zero]
    ac_rfl
  | cons b₀ bs =>
    have h0 : (pos == 0) = false := beq_eq_false_iff_ne.2 fun h0 => by simp [h0] at hpos
    simp only [List.cons_append, frameErrors, spiErrors, List.any_cons, List.any_append, List.any_nil,
      Bool.or_false, errIf_or, h0, List.take_succ_cons, List.take_zero, BEq.rfl, Bool.and_false,
      Bool.false_and, bne_self_eq_false, errIf_false, BitVec.or_zero]
    ac_rfl

theorem FrameProgress.cmd_length (h : FrameProgress p o bs s os) (hlt : bs.length < p.l) :
    o.cmd.length = p.l := by
  have hlen := h.shape.cmd_length
  rw [h.cmd, List.length_append, List.length_map, List.length_drop] at hlen
  omega

theorem FrameProgress.err (hl : 13 ≤ p.l) (h : FrameProgress p o bs s os) :
    s.err p = o.err p ||| frameErrors o.seq bs := by
  have hlt : p.l - 2 < o.tb.length := by
    rw [← List.length_set, ← h.tb]
    exact h.shape.err_lt hl
  rw [State.err, State.tbByte_congr (s := o.writeTb _ _) h.tb,
    State.tbByte_writeTb_same _ _ hlt]

theorem FrameProgress.cmd_set (h : FrameProgress p o bs s os) (hlt : bs.length < p.l)
    (b : FrameByte) :
    s.cmd.set s.pos.toNat b.2.2 =
      (bs ++ [b]).map (fun b => b.2.2) ++ o.cmd.drop (bs ++ [b]).length := by
  have hset := set_append_drop (pre := bs.map fun b => b.2.2) (l := o.cmd) (x := b.2.2)
    (by rw [List.length_map, h.cmd_length hlt]; exact hlt)
  rw [List.length_map, ← h.cmd] at hset
  rw [h.pos, hset, List.map_append, List.length_append]
  rfl

theorem replyBytes_openByte (b : FrameByte) (h : s.txcorrupt = false) :
    replyBytes (s.openByte p b.1 b.2.1 b.2.2).outputs = [s.txbuf.getD s.pos.toNat 0] := by
  rw [State.openByte, h, if_neg Bool.false_ne_true]
  dsimp only
  split <;> rfl

/-- Position 0 writes the last slot only, so the slots replied so far stand. -/
theorem take_openByte_txbuf (b : FrameByte) {k : Nat} (hk : s.pos = 0 → k ≤ p.l - 1) :
    (s.openByte p b.1 b.2.1 b.2.2).txbuf.take k = s.txbuf.take k := by
  simp only [State.openByte]
  split
  · next h0 => exact List.take_set_of_le (hk h0)
  · rfl

/-- A byte of the frame takes the progress one byte on, the `L`-th byte included. -/
theorem FrameProgress.openByte (hl : 13 ≤ p.l ∧ p.l ≤ 255) (h : FrameProgress p o bs s os)
    (b : FrameByte) (hlt : bs.length < p.l) :
    FrameProgress p o (bs ++ [b]) (s.openByte p b.1 b.2.1 b.2.2)
      (os ++ (s.openByte p b.1 b.2.1 b.2.2).outputs) := by
  obtain ⟨htb, htx, hcmd, hring⟩ := h.shape
  refine ⟨⟨List.length_set.trans htb, ?_, List.length_set.trans hcmd, hring⟩, h.selected, h.phase,
    ?_, h.cmd_set hlt b, fun hnil => absurd hnil (by simp), ?_, ?_, fun hclean => ?_⟩
  · simp only [State.openByte]
    split
    · exact List.length_set.trans htx
    · exact htx
  · rw [List.length_append, ← h.pos]
    exact pos_succ_toNat hl.2 (h.pos ▸ hlt)
  · cases bs with
    | nil =>
      have h0 : s.pos = 0 := BitVec.eq_of_toNat_eq h.pos
      obtain ⟨-, htxbuf⟩ := h.unread rfl
      simp [State.openByte, h0, htxbuf]
    | cons b₀ bs =>
      have h0 : s.pos ≠ 0 := fun h0 => by simpa [h0] using h.pos
      simp only [State.openByte, if_neg h0]
      exact h.acknowledged
  · simp only [State.openByte]
    rw [h.tb, List.set_set, h.err hl.1, BitVec.or_assoc,
      frameErrors_concat b h.pos fun hnil => (h.unread hnil).1]
  · rw [List.forall_mem_append, List.forall_mem_singleton] at hclean
    obtain ⟨htxcorrupt, hreplies⟩ := h.replies hclean.1
    have hslots : s.pos = 0 → bs.length + 1 ≤ p.l - 1 := fun h0 => by
      have h0 : bs.length = 0 := h.pos.symm.trans (congrArg BitVec.toNat h0)
      omega
    refine ⟨hclean.2, ?_⟩
    rw [replyBytes_append, hreplies, replyBytes_openByte b htxcorrupt, List.length_append,
      List.length_singleton, take_openByte_txbuf b hslots, List.take_add_one, h.pos,
      List.getElem?_eq_getElem (by omega), List.getD_eq_getElem _ _ (by omega)]
    rfl

/-- The bytes of an open frame, short of its last. -/
theorem FrameProgress.run (hl : 13 ≤ p.l ∧ p.l ≤ 255) (more : List FrameByte)
    (h : FrameProgress p o bs s os) (hlt : bs.length + more.length < p.l) :
    ∃ t os', runWith p (more.map FrameByte.event) s = some (t, os') ∧
      FrameProgress p o (bs ++ more) t (os ++ os') := by
  induction more generalizing bs s os with
  | nil => exact ⟨s, [], rfl, by simpa using h⟩
  | cons b more ih =>
    rw [List.length_cons] at hlt
    have hstep : execWith p b.event s = .next (s.openByte p b.1 b.2.1 b.2.2) :=
      execWith_spiByte_inside hl.2 h.shape h.phase (by rw [h.pos]; omega)
    obtain ⟨t, os', hrun, ht⟩ := ih (h.openByte hl b (by omega)) (by simp; omega)
    refine ⟨t, _, runWith_cons hstep hrun, ?_⟩
    simpa using ht

/-- Select released, the frame over and its last outputs gone (R193). -/
def State.released (s : State) : State := { s with sel := false, phase := .idle, outputs := [] }

/-- A frame of bytes is its opening, the run of its bytes, and its end. -/
theorem runWith_frameOf (hs : s.sel = false) (hm : s.mode = .active)
    (hrun : runWith p (bs.map FrameByte.event) (s.opened p) = some (t, os)) (ht : t.sel = true) :
    runWith p (frameOf bs) s = some (t.released, os) := by
  have hopen : execWith p .selAssert s = .next (s.opened p) :=
    congrArg _ (selAssert_of_active (s := s.quiet) hs hm)
  have hend : runWith p [.selDeassert] t = some (t.released, []) := by
    simp only [runWith, execWith_selDeassert, selDeassert_of_selected (s := t.quiet) ht]
    rfl
  have hall := runWith_cons hopen (runWith_append hrun hend)
  rw [List.append_nil] at hall
  exact hall

/-- A frame short of its last byte. -/
theorem runWith_frameOf_short (hl : 13 ≤ p.l ∧ p.l ≤ 255) (hs : s.Shape p) (hsel : s.sel = false)
    (hm : s.mode = .active) (hlt : bs.length < p.l) :
    ∃ t os, FrameProgress p (s.opened p) bs t os ∧
      runWith p (frameOf bs) s = some (t.released, os) := by
  obtain ⟨t, os, hrun, ht⟩ := (FrameProgress.opened (by omega) hs).run hl bs (by simpa using hlt)
  exact ⟨t, os, ht, runWith_frameOf hsel hm hrun ht.selected⟩

/-- A frame of exactly `L` bytes is completed by its last byte. -/
theorem runWith_frameOf_full (hl : 13 ≤ p.l ∧ p.l ≤ 255) (hs : s.Shape p) (hsel : s.sel = false)
    (hm : s.mode = .active) (hlen : bs.length = p.l) :
    ∃ t os, FrameProgress p (s.opened p) bs t os ∧
      runWith p (frameOf bs) s = some ((t.completed p).released, os) := by
  obtain rfl | ⟨pre, last, rfl⟩ := List.eq_nil_or_concat' bs
  · rw [List.length_nil] at hlen
    omega
  rw [List.length_append, List.length_singleton] at hlen
  obtain ⟨u, os, hrun, hu⟩ := (FrameProgress.opened (by omega) hs).run hl pre (by simp; omega)
  have hlast : execWith p last.event u =
      .next ((u.openByte p last.1 last.2.1 last.2.2).completed p) :=
    execWith_spiByte_last hl.2 hu.shape hu.phase (by rw [hu.pos]; exact hlen)
  have ht := hu.openByte hl last (by simp; omega)
  rw [List.nil_append, List.nil_append] at ht
  refine ⟨_, _, ht, runWith_frameOf hsel hm ?_ ht.selected⟩
  rw [List.map_append]
  exact runWith_append hrun ((runWith_cons hlast rfl).trans (by rw [List.append_nil]; rfl))

end Frame

/-- The error bits of a frame of at least one byte, condition by condition. -/
theorem frameErrors_cons (seq : Byte) (b : FrameByte) (bs : List FrameByte) :
    frameErrors seq (b :: bs) =
      (if (b :: bs).any (fun b => b.1) then 0x02 else 0) |||
        (if (b :: bs).any (fun b => b.2.1) then 0x04 else 0) |||
        (if b.2.2 ≠ 0 ∧ b.2.2 ≠ seq then 0x10 else 0) := by
  simp [frameErrors, errIf, errOverflow, errOverwrite, errSeqMismatch]

/-- Settles O45: the progress of the frame's bytes at its end, where nothing completes it. -/
theorem incompleteFrameKeepsItsEffects : Obligations.IncompleteFrameKeepsItsEffects := by
  intro p s hw hs hsel hm
  obtain ⟨hl, -⟩ := (Config.Params.wf_iff p).1 hw
  refine ⟨?_, fun id rest hlen => ?_⟩
  · have hrun : runWith p (frameOf []) s = some ((s.opened p).released, []) :=
      runWith_frameOf hsel hm rfl rfl
    exact ⟨_, hrun, rfl, rfl, rfl, State.snapshot_getElem?_last hs, rfl, rfl⟩
  · obtain ⟨t, os, ht, hrun⟩ := runWith_frameOf_short (bs := id :: rest) hl hs hsel hm hlen
    obtain ⟨hseq, htxbuf⟩ := ht.acknowledged id rfl
    refine ⟨_, os, hrun, hseq, ?_, ht.cmd, ht.pos, ?_, fun k hk => ?_, rfl, rfl⟩
    · have hlast : p.l - 1 < (s.snapshot p).length := by
        rw [State.snapshot_length hs (by omega)]
        omega
      exact (congrArg (·[p.l - 1]?) htxbuf).trans (List.getElem?_set_self hlast)
    · refine (ht.err hl.1).trans ?_
      rw [frameErrors_cons, ← BitVec.or_assoc, ← BitVec.or_assoc]
      rfl
    · exact (congrArg (·[k]?) ht.tb).trans (List.getElem?_set_ne hk.symm)

/-- The snapshot with the acknowledgement in its last slot. -/
theorem State.snapshot_set_last {p : Config.Params} {s : State} (hl : 1 ≤ p.l) (hs : s.Shape p)
    (ack : Byte) : (s.snapshot p).set (p.l - 1) ack = s.tb ++ [ack] := by
  have htb : s.tb.length = p.l - 1 := hs.1
  have htx : s.txbuf.length = p.l := hs.txbuf_length
  have hset := set_append_drop (pre := s.tb) (l := s.txbuf) (x := ack) (by omega)
  rw [List.drop_eq_nil_of_le (i := s.tb.length + 1) (by omega), List.append_nil] at hset
  rw [State.snapshot_eq hs, ← htb, hset]

/-- Settles O44: the progress of all `L` bytes, then what completion makes of it. -/
theorem fullFrameRepliesTheSnapshot : Obligations.FullFrameRepliesTheSnapshot := by
  intro p s ovf₀ id rest hw hs hsel hm hlen
  obtain ⟨hl, -⟩ := (Config.Params.wf_iff p).1 hw
  have hfull : ((ovf₀, false, id) :: rest.map fun b => (b.1, false, b.2)).length = p.l := by
    simpa using hlen
  obtain ⟨t, os, ht, hrun⟩ := runWith_frameOf_full hl hs hsel hm hfull
  obtain ⟨htb, htx, -⟩ := ht.shape
  obtain ⟨hseq, htxbuf⟩ := ht.acknowledged _ rfl
  obtain ⟨-, hreplies⟩ := ht.replies (by simp)
  have hcmd : t.cmd = id :: rest.map fun b => b.2 := by
    have hkept : (s.opened p).cmd.drop p.l = [] := List.drop_eq_nil_of_le hs.cmd_length.le
    rw [ht.cmd, hfull, hkept]
    simp
  refine ⟨_, os, hrun, ?_, fun k hk => State.completed_counters p t hk, fun hid => ?_, hcmd, hseq,
    rfl, rfl, fun k h4 hk => ?_⟩
  · rw [hreplies, hfull, List.take_of_length_le htx.le, htxbuf]
    exact State.snapshot_set_last (by omega) hs _
  · refine (State.completed_err hl.1 htb).trans (if_pos ?_)
    rw [hcmd, hid]
    rfl
  · rw [← List.getElem?_set_ne (l := s.tb) hk.symm]
    exact (State.completed_getElem? h4 hk).trans (congrArg (·[k]?) ht.tb)

end Sys2Proof.Machine

/-! The power mode (spec/45_power.md): the low count of a PWR_POLL as a number; the poll as the
count, then the entry, the wake or neither; and low polls in a row, by induction on their number. -/

namespace Sys2Proof.Machine

section Poll

variable {p : Config.Params} {s : State}

/-! The low count (R240, R241). -/

theorem State.countLow_toNat (hl : p.lowLimit ≤ 65535) :
    (s.countLow p).toNat =
      if s.voutMv.toNat < p.vOffMv then min (s.lowcnt.toNat + 1) p.lowLimit else 0 := by
  simp only [State.countLow, State.pollLow, decide_eq_true_eq]
  split
  · exact (BitVec.toNat_ofNat _ _).trans (Nat.mod_eq_of_lt (by omega))
  · rfl

/-- A reading equal to the threshold is not low (R241). -/
theorem State.countLow_of_not_low (hv : p.vOffMv ≤ s.voutMv.toNat) : s.countLow p = 0 := by
  simp [State.countLow, State.pollLow, hv]

/-- A low poll below the limit counts one. -/
theorem State.countLow_toNat_of_low (hl : p.lowLimit ≤ 65535) (hv : s.voutMv.toNat < p.vOffMv)
    (hlt : s.lowcnt.toNat < p.lowLimit) : (s.countLow p).toNat = s.lowcnt.toNat + 1 := by
  rw [State.countLow_toNat hl, if_pos hv]
  exact Nat.min_eq_left hlt

/-! What PWR_POLL answers with no frame open (R240, R248). -/

/-- The poll counted, before it decides the mode. -/
def State.polled (p : Config.Params) (s : State) : State :=
  { s with lowcnt := s.countLow p, outputs := [] }

theorem execWith_pwrPoll (hf : s.phase ≠ .active) :
    execWith p .pwrPoll s = .next
      (if s.mode = .active ∧ (s.countLow p).toNat = p.lowLimit then (s.polled p).enterLowPower
       else if s.mode = .lowPower ∧ p.vOnMv ≤ s.voutMv.toNat then (s.polled p).wake p
       else s.polled p) :=
  nonSerial_applied hf

theorem execWith_pwrPoll_enters (hf : s.phase ≠ .active) (hm : s.mode = .active)
    (hc : (s.countLow p).toNat = p.lowLimit) :
    execWith p .pwrPoll s = .next (s.polled p).enterLowPower := by
  rw [execWith_pwrPoll hf, if_pos ⟨hm, hc⟩]

theorem execWith_pwrPoll_wakes (hf : s.phase ≠ .active) (hm : s.mode = .lowPower)
    (hv : p.vOnMv ≤ s.voutMv.toNat) : execWith p .pwrPoll s = .next ((s.polled p).wake p) := by
  rw [execWith_pwrPoll hf, if_neg (by simp [hm]), if_pos ⟨hm, hv⟩]

theorem execWith_pwrPoll_stays (hf : s.phase ≠ .active)
    (he : ¬(s.mode = .active ∧ (s.countLow p).toNat = p.lowLimit))
    (hw : ¬(s.mode = .lowPower ∧ p.vOnMv ≤ s.voutMv.toNat)) :
    execWith p .pwrPoll s = .next (s.polled p) := by
  rw [execWith_pwrPoll hf, if_neg he, if_neg hw]

theorem State.wake_err (hs : p.l - 2 < s.tb.length) : (s.wake p).err p = p.errNone :=
  State.tbByte_writeTb_same s _ hs

end Poll

/-- Settles O47: the three answers of the poll, under the guards R240 tests in their order. -/
theorem powerPollDecidesTheMode : Obligations.PowerPollDecidesTheMode := by
  intro p s hw hs hf c
  obtain ⟨⟨hl, -⟩, -, -, -, ⟨-, hlim⟩, -⟩ := (Config.Params.wf_iff p).1 hw
  have hc : (s.countLow p).toNat = c := State.countLow_toNat hlim
  by_cases he : s.mode = .active ∧ c = p.lowLimit
  · obtain ⟨hm, hlimit⟩ := he
    refine ⟨_, execWith_pwrPoll_enters hf hm (hc.trans hlimit), hc, rfl, ?_⟩
    rw [if_pos ⟨hm, hlimit⟩]
    exact ⟨rfl, rfl, rfl⟩
  · by_cases hwake : s.mode = .lowPower ∧ p.vOnMv ≤ s.voutMv.toNat
    · obtain ⟨hm, hv⟩ := hwake
      refine ⟨_, execWith_pwrPoll_wakes hf hm hv, hc, rfl, ?_⟩
      rw [if_neg he, if_pos ⟨hm, hv⟩]
      exact ⟨State.wake_err (hs.err_lt hl),
        fun k hk => State.getElem?_writeTb_ne (s.polled p) _ hk, rfl, rfl, rfl⟩
    · refine ⟨_, execWith_pwrPoll_stays hf (hc ▸ he) hwake, hc, rfl, ?_⟩
      rw [if_neg he, if_neg hwake]
      rfl

/-- Settles O48: the count is 0, and the limit is not. -/
theorem nonLowPollZeroesTheCount : Obligations.NonLowPollZeroesTheCount := by
  intro s hf hm hv
  have hc : s.countLow Config.params = 0 := State.countLow_of_not_low hv
  rw [exec_eq_execWith, execWith_pwrPoll_stays hf (by simp [hc]) (by simp [hm]), State.polled, hc]

/-- Settles O49: a reading at `V_ON_MV` is at least `V_OFF_MV` (R8), so the wake poll counts 0. -/
theorem wakePollIsNeverLow : Obligations.WakePollIsNeverLow := by
  intro s hs hf hm
  rw [exec_eq_execWith]
  by_cases hv : Config.params.vOnMv ≤ s.voutMv.toNat
  · obtain ⟨-, -, -, -, -, -, -, hoff, -⟩ := (Config.Params.wf_iff _).1 Config.params_wf
    refine ⟨_, execWith_pwrPoll_wakes hf hm hv, by simp [hv], fun _ => ?_⟩
    exact ⟨State.countLow_of_not_low (hoff.trans hv), State.wake_err (hs.err_lt (by decide)),
      rfl, rfl, rfl⟩
  · have hstay : (s.polled Config.params).mode ≠ .active := fun ha => nomatch hm.symm.trans ha
    exact ⟨_, execWith_pwrPoll_stays hf (by simp [hm]) (by simp [hv]), iff_of_false hstay hv,
      fun ha => absurd ha hstay⟩

/-- Low polls in ACTIVE mode from any count below the limit, as many as reach it at most: each one
counts one, and the one that reaches the limit enters LOW_POWER (R242). -/
theorem runWith_lowPolls {p : Config.Params} {s : State} {n : Nat} (hl : p.lowLimit ≤ 65535)
    (hf : s.phase ≠ .active) (hm : s.mode = .active) (hv : s.voutMv.toNat < p.vOffMv)
    (hlt : s.lowcnt.toNat < p.lowLimit) (hn : s.lowcnt.toNat + n ≤ p.lowLimit) :
    ∃ t, runWith p (List.replicate n .pwrPoll) s = some (t, []) ∧
      t.lowcnt.toNat = s.lowcnt.toNat + n ∧
      (t.mode = .lowPower ↔ s.lowcnt.toNat + n = p.lowLimit) := by
  induction n generalizing s with
  | zero => exact ⟨s, rfl, rfl, by simp [hm, hlt.ne]⟩
  | succ n ih =>
    have hc : (s.polled p).lowcnt.toNat = s.lowcnt.toNat + 1 :=
      State.countLow_toNat_of_low hl hv hlt
    by_cases hlast : s.lowcnt.toNat + 1 = p.lowLimit
    · have hn0 : n = 0 := by omega
      subst hn0
      have hstep := execWith_pwrPoll_enters hf hm (hc.trans hlast)
      exact ⟨_, runWith_cons hstep rfl, hc, iff_of_true rfl hlast⟩
    · have hstep := execWith_pwrPoll_stays hf (fun h => hlast (hc.symm.trans h.2)) (by simp [hm])
      obtain ⟨t, hrun, hcnt, hmode⟩ :=
        ih (s := s.polled p) hf hm hv (by omega) (by omega)
      have hsum : (s.polled p).lowcnt.toNat + n = s.lowcnt.toNat + (n + 1) := by omega
      rw [hsum] at hcnt hmode
      exact ⟨t, runWith_cons hstep hrun, hcnt, hmode⟩

/-- Settles O50: the run of low polls from count 0, which is below the limit (R8). -/
theorem lowPowerEntryAtTheLimit : Obligations.LowPowerEntryAtTheLimit := by
  intro p s n hw hf hm h0 hv hn
  obtain ⟨-, -, -, -, ⟨hpos, hlim⟩, -⟩ := (Config.Params.wf_iff p).1 hw
  have hzero : s.lowcnt.toNat = 0 := congrArg BitVec.toNat h0
  have hrun := runWith_lowPolls hlim hf hm hv (n := n) (by omega) (by omega)
  rwa [hzero, Nat.zero_add] at hrun

end Sys2Proof.Machine

/-! No condition is fatal (spec/60_exceptions.md): a step answers whatever the environment delivers,
for any meaning of the events that always answers; the registers an SPI_BYTE keeps are read off the
writers of each register. -/

namespace Sys2Proof.Machine

/-- Held or not, every event answers a next state for every parameter set (R263). -/
theorem execWith_exists_next (p : Config.Params) (i : Instr) (s : State) :
    ∃ t, execWith p i s = .next t := by
  cases i <;> exact ⟨_, rfl⟩

theorem deliver_of_nothing {p : Config.Params}
    {run : Instr → State → Host.Outcome State Fault Refusal} {s u : State}
    (h : s.takeInput = (.nothing, u)) : deliver p run s = .next u.quiet := by
  simp [deliver, h]

theorem deliver_of_reset {p : Config.Params}
    {run : Instr → State → Host.Outcome State Fault Refusal} {s u : State}
    (h : s.takeInput = (.reset, u)) : deliver p run s = .next (u.applyReset p) := by
  simp [deliver, h]

/-- A step answers when every event does: waiting (R291), the reset (R290) and the refusal of a word
(R88) answer by themselves. -/
theorem deliver_exists_next {p : Config.Params}
    {run : Instr → State → Host.Outcome State Fault Refusal}
    (hrun : ∀ i u, ∃ t, run i u = .next t) (s : State) : ∃ t, deliver p run s = .next t := by
  rcases hu : s.takeInput with ⟨x, u⟩
  cases x with
  | nothing => exact ⟨_, deliver_of_nothing hu⟩
  | reset => exact ⟨_, deliver_of_reset hu⟩
  | word w =>
    cases hd : decode w with
    | error e => exact ⟨_, deliver_of_refused_word hu hd⟩
    | ok i =>
      rw [deliver_of_word hu hd]
      exact hrun i u

theorem stepWith_exists_next (p : Config.Params) (s : State) : ∃ t, stepWith p s = .next t :=
  deliver_exists_next (execWith_exists_next p) s

/-- The receiver enable follows the mode (R208). -/
theorem State.spiEn_congr {s t : State} (h : t.mode = s.mode) : t.spiEn = s.spiEn :=
  congrArg (· == PowerMode.active) h

/-- An SPI_BYTE writes neither the mode nor the select line: PWR_POLL alone writes the one, the select
events the other. -/
theorem Effect.mode_sel_of_spiByte {p : Config.Params} {ovf wcol : Bool} {rx : Byte} {s t : State}
    (h : Effect p s (.spiByte ovf wcol rx) t) : t.mode = s.mode ∧ t.sel = s.sel := by
  obtain ⟨hmode, -⟩ := h.power_writers.resolve_right (by simp)
  exact ⟨hmode, h.sel_writers.resolve_right (by simp)⟩

/-- Settles O12: the answer of a step by what is delivered, the registers of a byte by their
writers. -/
theorem noConditionStopsTheBlock : Obligations.NoConditionStopsTheBlock := by
  refine ⟨fun s => ?_, stepWith_exists_next, fun s ovf wcol rx => ?_⟩
  · rw [step_eq_stepWith]
    exact stepWith_exists_next Config.params s
  · obtain ⟨t, ht⟩ := exec_exists_next (.spiByte ovf wcol rx) s
    obtain ⟨hmode, hsel⟩ := (exec_effect ht).mode_sel_of_spiByte
    exact ⟨t, ht, hmode, State.spiEn_congr hmode, hsel⟩

end Sys2Proof.Machine

/-! Reset and the hazards between events (spec/70_reset_and_hazards.md): what the reset values give on
the outputs, the steps of an environment that delivers nothing, which events write the pending list, and
the run of two polls that a glitch falls between. -/

namespace Sys2Proof.Machine

/-! Reset (R290, R295). -/

section Reset

variable {p : Config.Params} {s : State}

theorem State.resetWith_atReset (p : Config.Params) : (State.resetWith p).AtReset p :=
  ⟨rfl, rfl, ⟨rfl, rfl⟩, ⟨rfl, rfl, rfl⟩, ⟨rfl, rfl, rfl⟩, ⟨rfl, rfl, rfl⟩, ⟨rfl, rfl, rfl, rfl⟩,
    ⟨rfl, rfl, rfl⟩, ⟨rfl, rfl⟩⟩

/-- At reset every telemetry byte below the error byte is 0. -/
theorem State.AtReset.tbByte_eq_zero (h : s.AtReset p) {k : Nat} (hk : k < p.l - 2) :
    s.tbByte k = 0 := by
  rw [State.tbByte, h.tb, List.getD_append _ _ _ _ (by simpa using hk)]
  exact List.getD_replicate _ hk

/-- The press counters lie below the error byte, so none is set at reset. -/
theorem State.AtReset.attn_eq_false (h : s.AtReset p) (hl : 13 ≤ p.l) : s.attn = false :=
  (State.attn_eq_false_iff s).2 fun _ hb => h.tbByte_eq_zero (by omega)

theorem State.AtReset.busy_eq_false (h : s.AtReset p) : s.busy = false := by
  obtain ⟨-, hphase, -⟩ := h.frame
  simp [State.busy, hphase]

theorem State.AtReset.spiEn_eq_true (h : s.AtReset p) : s.spiEn = true := by
  obtain ⟨hmode, -⟩ := h.power
  simp [State.spiEn, hmode]

/-- A heartbeat count of 0 is due only against a threshold of 0 (R105). -/
theorem State.AtReset.hbDue_iff (h : s.AtReset p) : s.hbDue p = true ↔ p.hbThreshold = 0 := by
  rw [State.hbDue_iff, h.hb, Nat.le_zero]

end Reset

/-- Settles O13: the reset input delivered is `applyReset`, and each output is read off the reset
values. -/
theorem resetSetsEveryRegister : Obligations.ResetSetsEveryRegister := by
  refine ⟨⟨State.resetWith_atReset _, rfl⟩, fun s rest he => ?_, fun t ht => ?_⟩
  · exact ⟨_, deliver_of_reset (State.takeInput_reset he), State.applyReset_atReset _ _, rfl, rfl, rfl,
      rfl⟩
  · obtain ⟨hch, -⟩ := ht.adc
    obtain ⟨hmode, -⟩ := ht.power
    exact ⟨ht.attn_eq_false (by decide), ht.busy_eq_false, hch, ht.spiEn_eq_true, hmode, ht.hbDue_iff⟩

theorem State.resetWith_tb (p : Config.Params) :
    (State.resetWith p).tb = List.replicate (p.l - 2) 0 ++ [p.errNone] := rfl

/-- Settles O46: the full-frame law from the reset state, whose telemetry image is its reset value. -/
theorem firstReplyAfterReset : Obligations.FirstReplyAfterReset := by
  intro id rest hlen
  have hshape : State.reset.Shape Config.params :=
    (State.resetWith_inv Config.params_wf params_errNone_reserved).shape
  obtain ⟨t, os, hrun, hreply, -⟩ := fullFrameRepliesTheSnapshot Config.params State.reset false id
    (rest.map fun b => (false, b)) Config.params_wf hshape rfl rfl (by rwa [List.length_map])
  rw [List.map_map] at hrun
  refine ⟨t, os, (runEvents_eq_runWith _ _).trans hrun, ?_⟩
  rw [hreply, State.reset, State.resetWith_tb, List.append_assoc]
  rfl

/-! Waiting (R291). -/

theorem State.takeInput_held_absent {s : State} {k : Nat} {rest : List Input}
    (h : s.events = .held k :: rest) (hk : s.held.length ≤ k) :
    s.takeInput = (.nothing, { s with events := rest }) := by
  simp [State.takeInput, h, List.getElem?_eq_none hk]

/-- Settles O9: both ways of delivering nothing end in `deliver_of_nothing`. -/
theorem stepWaitsForAnEvent : Obligations.StepWaitsForAnEvent := fun _ =>
  ⟨fun he => deliver_of_nothing (State.takeInput_none he),
    fun _ _ he hk => deliver_of_nothing (State.takeInput_held_absent he hk)⟩

/-! The hold (R300, R301). -/

theorem Instr.isSerial_eq_false_iff (i : Instr) :
    i.isSerial = false ↔
      i = .tick ∨ i = .hbAck ∨ (∃ raw, i = .btnPoll raw) ∨ i = .adcStart ∨ (∃ r, i = .adcDone r) ∨
        i = .pwrPoll := by
  cases i <;> simp [Instr.isSerial]

theorem exec_of_held {i : Instr} {s : State} (ha : s.phase = .active) (hi : i.isSerial = false) :
    exec i s = .next (s.hold i) :=
  (exec_eq_execWith i s).trans (execWith_of_held ha hi)

/-- The pending list is written by the hold of a non-serial event inside a frame, and by nothing
else. -/
theorem Effect.held_cases {p : Config.Params} {i : Instr} {s t : State} (h : Effect p s i t) :
    t.held = s.held ∨ (s.phase = .active ∧ i.isSerial = false) := by
  cases h
  case held ha hi => exact .inr ⟨ha, hi⟩
  all_goals exact .inl rfl

/-- Settles O14: a non-serial event inside a frame is the hold itself; any other event is no writer of
the pending list. -/
theorem nonSerialEventsAreHeld : Obligations.NonSerialEventsAreHeld := by
  intro s i
  refine ⟨fun hi ha => exec_of_held ha ((Instr.isSerial_eq_false_iff i).2 hi), fun hi => ?_⟩
  obtain ⟨t, ht⟩ := exec_exists_next i s
  refine ⟨t, ht, (exec_effect ht).held_cases.resolve_right ?_⟩
  rintro ⟨ha, hns⟩
  rcases hi with rfl | rfl | ⟨_, _, _, rfl⟩ | hclosed
  · nomatch hns
  · nomatch hns
  · nomatch hns
  · exact hclosed ha

/-- Settles O15: the redelivered word decodes to its event again, which runs or is held as a new one
would be. -/
theorem heldEventsAreDeliveredInAnyOrder : Obligations.HeldEventsAreDeliveredInAnyOrder := by
  intro s i k rest hi hk he
  have hstep : step s = exec i { s with events := rest, held := s.held.eraseIdx k } :=
    (stepRunsDecodedEvent s (encode i) i rest (decodeInvertsEncode i)).2 k he hk
  exact ⟨fun _ => hstep, fun ha => hstep.trans (exec_of_held ha hi)⟩

/-! Two polls in a row (R310). -/

theorem btnPoll_phase (p : Config.Params) (raw : Buttons) (s : State) :
    (btnPoll p raw s).phase = s.phase := by
  rw [btnPoll_eq]

theorem btnPoll_outputs (p : Config.Params) (raw : Buttons) (s : State) :
    (btnPoll p raw s).outputs = s.outputs := by
  rw [btnPoll_eq]

/-- BTN_POLL opens no frame and emits nothing, so a second poll runs on what the first leaves. -/
theorem runEvents_two_polls (raw₁ raw₂ : Buttons) {s : State} (ha : s.phase ≠ .active) :
    runEvents [.btnPoll raw₁, .btnPoll raw₂] s =
      some (btnPoll Config.params raw₂ (btnPoll Config.params raw₁ s.quiet).quiet, []) := by
  have hphase : (btnPoll Config.params raw₁ s.quiet).phase ≠ .active := by rwa [btnPoll_phase]
  simp [runEvents, exec_btnPoll raw₁ ha, exec_btnPoll raw₂ hphase, btnPoll_outputs]

theorem btnPoll_tb_length (p : Config.Params) (raw : Buttons) (s : State) :
    (btnPoll p raw s).tb.length = s.tb.length := by
  rw [btnPoll_tb, State.writeTb_length]
  exact (countPresses_spec p s raw s).2.1

/-- A level that differs from the previous sample is not accepted (R120). -/
theorem not_accepts_of_ne_ab {s : State} {raw : Buttons} {b : Nat}
    (h : raw.getLsbD b ≠ s.ab.getLsbD b) : ¬accepts s raw b = true := fun ha =>
  h ((accepts_iff s raw b).1 ha).1

/-- Settles O21: the first poll meets an older sample of the other level, and the second meets the
first's; neither is accepted. -/
theorem onePollGlitchIsIgnored : Obligations.OnePollGlitchIsIgnored := by
  intro raw₁ raw₂ s b hb hs ha hnew hback
  have htb : s.quiet.tb.length = 19 := hs.1
  obtain ⟨hvalid₁, hcount₁⟩ := btnPoll_lane_of_not_accepts (p := Config.params) (s := s.quiet) hb
    (by omega) (not_accepts_of_ne_ab hnew)
  obtain ⟨hvalid₂, hcount₂⟩ := btnPoll_lane_of_not_accepts (p := Config.params)
    (s := (btnPoll Config.params raw₁ s.quiet).quiet) hb
    (by rw [State.quiet_tb, btnPoll_tb_length]; omega) (not_accepts_of_ne_ab hback)
  exact ⟨_, runEvents_two_polls raw₁ raw₂ ha, hvalid₂.trans hvalid₁, hcount₂.trans hcount₁⟩

end Sys2Proof.Machine
